-- ==== Sys2Proof/Word.lean ====
section
/-! DEFINITION. The word types of the block: every value is 32 bits wide unless a rule says otherwise
(00_scope R3). -/

namespace Sys2Proof

/-- A 32-bit value: an address, an auxiliary register, a memory word (00_scope R3). -/
abbrev Word := BitVec 32

/-- Eight bits: a memory byte, an ASID, a vector number, a cause or parameter byte. -/
abbrev Byte := BitVec 8

end Sys2Proof
end

