-- ==== Sys2Proof/Config.lean ====
section
/-! DEFINITION. What an implementation fixes (00_scope R4), as one record of plain data, and the free values
of the spec as constants without a body.

DESIGN CHOICE [log 1]: the record stands in the machine's state as a field that no step changes, so that a
statement about every state is a statement about every implementation. Safe. -/

namespace Sys2Proof

/-- Byte order of physical memory words, parameter `ENDIAN` (00_scope R4, 20_memory R72). -/
inductive Endian where
  | little
  | big
  deriving DecidableEq, Repr

/-- The shared-ASID test, parameter `SHARED_MATCH` (41_tlb R142): the spec's default formula, or any other
test, of which nothing is known. -/
inductive SharedTest where
  /-- the default `SASID[k[5:0]]` -/
  | sasidBit
  /-- a test the implementation chooses: the free function `Config.otherSharedMatch` -/
  | other
  deriving DecidableEq, Repr

/-- The auxiliary registers of 10_state R52 by name. A region register carries its index; whether the region
exists is a check of the access (42_mpu R200). -/
inductive AuxReg where
  | pd0 | pd1 | tlbindex | tlbcommand | pid | sasid0 | sasid1
  | mpuEn | mpuEcr
  | rdb (i : Nat)
  | rdp (i : Nat)
  | ecr | efa | eret | erstatus | erbta | ivb | userSp | statusP0
  | irqSelect | irqPriority | irqEnable | irqTrigger | irqPending | irqPulseCancel | irqHint
  | icause | irqAct | irqCtrl | status
  deriving DecidableEq, Repr

/-- The implementation parameters of 00_scope R4, under the spec's names. -/
structure Config where
  /-- `PAGE_BITS`, 13 to 24 -/
  pageBits : Nat
  /-- `MMU_CEILING`, the first address the MMU does not govern -/
  mmuCeiling : Word
  /-- `MPU_REGIONS`, one of 0, 1, 2, 4, 8, 16 (R2) -/
  mpuRegions : Nat
  /-- `NUM_PRIO`, 1 to 16 -/
  numPrio : Nat
  /-- `NUM_HW_IRQ`, 0 to 240 -/
  numHwIrq : Nat
  /-- `NUM_IRQ`, from `NUM_HW_IRQ` to 240 -/
  numIrq : Nat
  /-- `FIRQ_PRESENT` -/
  firqPresent : Bool
  /-- `NUM_BANKS`, 1 or 2 -/
  numBanks : Nat
  /-- `BANKED_SET` as a mask: bit `i` says that `r<i>` is banked (10_state R21) -/
  bankedSet : BitVec 32
  /-- `CODE_DENSITY` -/
  codeDensity : Bool
  /-- `HAS_LOOP` -/
  hasLoop : Bool
  /-- `IVB_RESET` -/
  ivbReset : Word
  /-- `ENDIAN` -/
  endian : Endian
  /-- `AUX_ID`: the number of each auxiliary register (30_encoding R99) -/
  auxIds : List (Word × AuxReg)
  /-- `SHARED_MATCH` (41_tlb R142) -/
  sharedTest : SharedTest
  /-- `PROTV_PARAM_MMU` (30_encoding R109) -/
  protvMmu : Byte
  /-- `PROTV_PARAM_MPU` (30_encoding R109) -/
  protvMpu : Byte
  deriving DecidableEq, Repr

/-- The shared-ASID test of an implementation that does not use the spec's default: a free function of the mask
`SASID1:SASID0` and the entry's ASID (41_tlb R142; 93 K21) [log 11]. -/
opaque Config.otherSharedMatch : BitVec 64 → Byte → Bool

/-- The places that take a draw in a RESET request (70 R320, R321). Indices name the TLB entry, the region, the
priority or the register. -/
inductive DrawSite where
  | tlbTag (index : Nat)
  | tlbData (index : Nat)
  | pd0 | pd1 | tlbindex | asid | sasid0 | sasid1
  | regionBase (i : Nat)
  | regionDesc (i : Nat)
  | dperm | mpuEcr
  | irqSelect
  | icause (p : Nat)
  | eret | erstatus | erbta | bta | statusP0
  | core (i : Nat)
  | bank0 (i : Nat)
  | bank1 (i : Nat)
  | userSp | lpCount | lpStart | lpEnd | eiBase | ldiBase | jliBase
  deriving DecidableEq, Repr

/-- The free value a place takes in the `n`-th RESET request: "a draw (a free input at reset)", under no law
(10_state, head; 93 K17) [log 6]. A narrow field takes the bits of it that its layout names. -/
opaque Config.draw : (n : Nat) → DrawSite → Word

/-- The region registers' numbers: `RDB[i]` and `RDP[i]` alternate. PRESUMED [log 10]: the ARCv2 family's numbers.
Index 16 is listed too, for the access of vector MP9 to a register past the last region. -/
def Config.regionAuxIds : List (Word × AuxReg) :=
  (List.range 17).flatMap fun i =>
    [(BitVec.ofNat 32 (0x422 + 2 * i), AuxReg.rdb i), (BitVec.ofNat 32 (0x423 + 2 * i), AuxReg.rdp i)]

/-- The numbers of the other registers. PRESUMED [log 10]: the ARCv2 family's numbers; the spec leaves them open
(30_encoding R99), and no statement rests on them. -/
def Config.namedAuxIds : List (Word × AuxReg) :=
  [(0x460, .pd0), (0x461, .pd1), (0x464, .tlbindex), (0x465, .tlbcommand), (0x468, .pid),
   (0x46A, .sasid0), (0x46B, .sasid1), (0x409, .mpuEn), (0x420, .mpuEcr)] ++
  [(0x403, .ecr), (0x404, .efa), (0x400, .eret), (0x402, .erstatus), (0x401, .erbta),
   (0x025, .ivb), (0x00D, .userSp), (0x00B, .statusP0), (0x00A, .status)] ++
  [(0x40B, .irqSelect), (0x206, .irqPriority), (0x40C, .irqEnable), (0x40D, .irqTrigger),
   (0x416, .irqPending), (0x415, .irqPulseCancel), (0x201, .irqHint), (0x40A, .icause),
   (0x043, .irqAct), (0x00E, .irqCtrl)]

/-- The implementation whose parameters the spec's vectors use (00_scope R4, 95_test_vectors): `State.reset` is that
machine's reset state [log 1]. `BANKED_SET` is `r0..r3, r10..r15, r26, r27, r30` (10_state R21). -/
def Config.vectors : Config where
  pageBits := 13
  mmuCeiling := 0x80000000
  mpuRegions := 16
  numPrio := 16
  numHwIrq := 8
  numIrq := 12
  firqPresent := true
  numBanks := 2
  bankedSet := 0x4C00FC0F
  codeDensity := true
  hasLoop := true
  ivbReset := 0
  endian := .little
  auxIds := Config.namedAuxIds ++ Config.regionAuxIds
  sharedTest := .sasidBit
  protvMmu := 0x08
  protvMpu := 0x04

end Sys2Proof
end

