-- ==== Sys2Proof/Syntax.lean ====
section
/-! DEFINITION. The requests of the block: one constructor for each row of `spec/opcode_table.json`, with the
operands of 30_encoding R92, and the form in which a request reaches the block. -/

namespace Sys2Proof

/-- The access kinds (00_scope section 5, 30_encoding R104). -/
inductive AccessKind where
  | fetch
  | read
  | write
  deriving DecidableEq, Repr

/-- The TLB commands (30_encoding R113, 41_tlb R150). -/
inductive TlbCmd where
  | write
  | read
  | writeNi
  | insert
  | delete
  deriving DecidableEq, Repr

/-- The reasons a request is refused (30_encoding R96). A refused request sets the `refused` mark and changes
nothing else [log 4]. -/
inductive RefuseReason where
  /-- a header of 30_encoding R91 that names no request -/
  | reservedRequest
  /-- an auxiliary id of no register of the block (30_encoding R97, R98) -/
  | unknownAuxId
  /-- a TLB command code not in 41_tlb R150 (R164) -/
  | unknownTlbCommand
  /-- a translation that hits a super-page entry (41_tlb R148) -/
  | superPageUnmodelled
  /-- `TRANSLATE` with `KIND = 0` (30_encoding R104) -/
  | reservedAccessKind
  /-- `RETURN` with no exception and no interrupt active (60_exceptions R296) -/
  | returnNothingActive
  /-- `LINE` of a source that is no hardware source (43_interrupts R231) -/
  | lineNotHardware
  /-- a regular entry whose return could not find its frame (43_interrupts R259) -/
  | userEntryWhileActive
  deriving DecidableEq, Repr

/-- One request as it reaches the block: the header word of 30_encoding R91 and the operand words in the order of
R92 (95_test_vectors L3). A request with fewer operands leaves the words after them unused [log 2]. -/
structure Request where
  header : Word
  op0 : Word
  op1 : Word
  op2 : Word
  op3 : Word
  op4 : Word
  op5 : Word
  deriving DecidableEq, Repr

/-- The requests and TLB commands, one constructor for each row of the opcode table. -/
inductive Instr where
  /-- `TRANSLATE` with `KIND = FETCH` (40_router R133) -/
  | translateFetch (vaddr pc : Word)
  /-- `TRANSLATE` with `KIND = READ` (40_router R133) -/
  | translateRead (vaddr pc : Word)
  /-- `TRANSLATE` with `KIND = WRITE` (40_router R133) -/
  | translateWrite (vaddr pc : Word)
  /-- `AUX_READ` (30_encoding R97) -/
  | auxRead (id pc : Word)
  /-- `AUX_WRITE` (30_encoding R98) -/
  | auxWrite (id wdata pc : Word)
  /-- `IRQ_POLL` (43_interrupts R249); `pc` is the next instruction's address -/
  | irqPoll (pc : Word)
  /-- `RETURN` (60_exceptions R296) -/
  | ret
  /-- `RAISE` (60_exceptions R293) -/
  | raise (vector cause param : Byte) (faddr pc retPc : Word)
  /-- `RESET` (70 R320) -/
  | reset
  /-- `TLB_FLUSH_EXT` (41_tlb R165) -/
  | tlbFlushExt
  /-- `STATUS_READ` (60_exceptions R300) -/
  | statusRead
  /-- `STATUS_WRITE` (60_exceptions R301) -/
  | statusWrite (wdata : Word)
  /-- `LINE`, the environment step (43_interrupts R231) -/
  | line (src : Byte) (level : Bool)
  /-- the command WRITE, `AUX_WRITE TLBCOMMAND, 0x1` (41_tlb R153) -/
  | tlbcmdWrite (pc : Word)
  /-- the command READ, `AUX_WRITE TLBCOMMAND, 0x2` (41_tlb R152) -/
  | tlbcmdRead (pc : Word)
  /-- the command WRITENI, `AUX_WRITE TLBCOMMAND, 0x5` (41_tlb R154) -/
  | tlbcmdWriteNi (pc : Word)
  /-- the command INSERT, `AUX_WRITE TLBCOMMAND, 0x7` (41_tlb R158 to R161) -/
  | tlbcmdInsert (pc : Word)
  /-- the command DELETE, `AUX_WRITE TLBCOMMAND, 0x8` (41_tlb R156, R157) -/
  | tlbcmdDelete (pc : Word)
  deriving DecidableEq, Repr

end Sys2Proof
end

