-- ==== Sys2Proof/Decode.lean ====
section
/-! DEFINITION. From a request's words to the request, and back (30_encoding R91 to R104, R113, R128). Decoding is
total: a header that names no request is rejected with the reason R96 gives it. -/

namespace Sys2Proof

/-! ### Auxiliary-register numbers -/

/-- The register an auxiliary id names in this implementation (30_encoding R97, R99). -/
def Config.auxReg? (cfg : Config) (id : Word) : Option AuxReg :=
  (cfg.auxIds.find? fun e => e.1 == id).map (·.2)

/-- `AUX_ID(r)` (30_encoding R99); 0 for a register without a number, which `Config.wf` rules out. -/
def Config.auxId (cfg : Config) (r : AuxReg) : Word :=
  ((cfg.auxIds.find? fun e => e.2 == r).map (·.1)).getD 0

/-! ### TLB command codes -/

/-- The command a written `TLBCOMMAND` value names (30_encoding R113). -/
def tlbCmd? (code : Word) : Option TlbCmd :=
  match code.toNat with
  | 0x1 => some .write
  | 0x2 => some .read
  | 0x5 => some .writeNi
  | 0x7 => some .insert
  | 0x8 => some .delete
  | _ => none

/-- The code of a command (30_encoding R113). -/
def TlbCmd.code : TlbCmd → Word
  | .write => 0x1
  | .read => 0x2
  | .writeNi => 0x5
  | .insert => 0x7
  | .delete => 0x8

/-- The request that issues a command: `TLBCMD x` means exactly `AUX_WRITE TLBCOMMAND, x` (30_encoding R129). -/
def TlbCmd.request (c : TlbCmd) (pc : Word) : Instr :=
  match c with
  | .write => .tlbcmdWrite pc
  | .read => .tlbcmdRead pc
  | .writeNi => .tlbcmdWriteNi pc
  | .insert => .tlbcmdInsert pc
  | .delete => .tlbcmdDelete pc

/-! ### The header word -/

/-- The access kind a `KIND` field names (30_encoding R104); 0 is reserved. -/
def accessKind? (kind : BitVec 2) : Option AccessKind :=
  match kind.toNat with
  | 1 => some .fetch
  | 2 => some .read
  | 3 => some .write
  | _ => none

/-- Field `OP`, bits 3:0 (30_encoding R91). -/
def Request.opField (r : Request) : BitVec 4 := r.header.extractLsb' 0 4

/-- Field `KIND`, bits 5:4 (30_encoding R91). -/
def Request.kindField (r : Request) : BitVec 2 := r.header.extractLsb' 4 2

/-- Bits 31:6, which must be 0 (30_encoding R91). -/
def Request.reservedField (r : Request) : BitVec 26 := r.header.extractLsb' 6 26

/-- The header word of a request code and a `KIND` value (30_encoding R91). -/
def headerOf (op : BitVec 4) (kind : BitVec 2) : Word := (0#26 ++ kind) ++ op

/-! ### Decoding -/

/-- What a request's words say: a request, or a rejection with its reason. -/
inductive Decoded where
  | instr (i : Instr)
  | rejected (reason : RefuseReason)
  deriving DecidableEq, Repr

/-- `TRANSLATE` by its access kind; `KIND = 0` is rejected by name (30_encoding R104). -/
def decodeTranslate (kind : BitVec 2) (vaddr pc : Word) : Decoded :=
  match accessKind? kind with
  | some .fetch => .instr (.translateFetch vaddr pc)
  | some .read => .instr (.translateRead vaddr pc)
  | some .write => .instr (.translateWrite vaddr pc)
  | none => .rejected .reservedAccessKind

/-- `AUX_WRITE`: a write of a command code to `TLBCOMMAND` is that command (30_encoding R129, 41_tlb R150)
[log 3]. -/
def decodeAuxWrite (cfg : Config) (id wdata pc : Word) : Instr :=
  if cfg.auxReg? id = some .tlbcommand then
    match tlbCmd? wdata with
    | some c => c.request pc
    | none => .auxWrite id wdata pc
  else .auxWrite id wdata pc

/-- The request codes other than `TRANSLATE`, with their operands (30_encoding R92). A narrow operand is the low
bits of its word [log 15]. -/
def decodeOp (cfg : Config) (r : Request) : Decoded :=
  match r.opField.toNat with
  | 0x2 => .instr (.auxRead r.op0 r.op1)
  | 0x3 => .instr (decodeAuxWrite cfg r.op0 r.op1 r.op2)
  | 0x4 => .instr (.irqPoll r.op0)
  | 0x5 => .instr .ret
  | 0x6 =>
    .instr (.raise (r.op0.setWidth 8) (r.op1.setWidth 8) (r.op2.setWidth 8) r.op3 r.op4 r.op5)
  | 0x7 => .instr .reset
  | 0x8 => .instr .tlbFlushExt
  | 0x9 => .instr .statusRead
  | 0xA => .instr (.statusWrite r.op0)
  | 0xB => .instr (.line (r.op0.setWidth 8) (r.op1.getLsbD 0))
  | _ => .rejected .reservedRequest

/-- The request a request's words name: the header rules of 30_encoding R91, R92 and R104. DESIGN CHOICE [log 24]: a
`TRANSLATE` header with `KIND = 0` and a non-zero bit in 31:6 meets both R91 and R104, and no rule orders the two
(60_exceptions R294 does not list the header bits); it is rejected as `reservedRequest`. -/
def decode (cfg : Config) (r : Request) : Decoded :=
  if r.reservedField ≠ 0 then .rejected .reservedRequest
  else if r.opField = 0x1 then decodeTranslate r.kindField r.op0 r.op1
  else if r.kindField ≠ 0 then .rejected .reservedRequest
  else decodeOp cfg r

/-! ### Encoding -/

/-- A request with the given header and no operands. -/
def Request.bare (header : Word) : Request :=
  { header, op0 := 0, op1 := 0, op2 := 0, op3 := 0, op4 := 0, op5 := 0 }

/-- The words of `AUX_WRITE id, wdata, pc` (30_encoding R92). -/
def Request.auxWrite (id wdata pc : Word) : Request :=
  { Request.bare (headerOf 0x3 0) with op0 := id, op1 := wdata, op2 := pc }

/-- The words of a request, from the tables of 30_encoding R91, R92, R104 and R113. -/
def encode (cfg : Config) : Instr → Request
  | .translateFetch vaddr pc => { Request.bare (headerOf 0x1 1) with op0 := vaddr, op1 := pc }
  | .translateRead vaddr pc => { Request.bare (headerOf 0x1 2) with op0 := vaddr, op1 := pc }
  | .translateWrite vaddr pc => { Request.bare (headerOf 0x1 3) with op0 := vaddr, op1 := pc }
  | .auxRead id pc => { Request.bare (headerOf 0x2 0) with op0 := id, op1 := pc }
  | .auxWrite id wdata pc => Request.auxWrite id wdata pc
  | .irqPoll pc => { Request.bare (headerOf 0x4 0) with op0 := pc }
  | .ret => Request.bare (headerOf 0x5 0)
  | .raise vector cause param faddr pc retPc =>
    { header := headerOf 0x6 0, op0 := vector.setWidth 32, op1 := cause.setWidth 32,
      op2 := param.setWidth 32, op3 := faddr, op4 := pc, op5 := retPc }
  | .reset => Request.bare (headerOf 0x7 0)
  | .tlbFlushExt => Request.bare (headerOf 0x8 0)
  | .statusRead => Request.bare (headerOf 0x9 0)
  | .statusWrite wdata => { Request.bare (headerOf 0xA 0) with op0 := wdata }
  | .line src level =>
    { Request.bare (headerOf 0xB 0) with op0 := src.setWidth 32, op1 := if level then 1 else 0 }
  | .tlbcmdWrite pc => Request.auxWrite (cfg.auxId .tlbcommand) TlbCmd.write.code pc
  | .tlbcmdRead pc => Request.auxWrite (cfg.auxId .tlbcommand) TlbCmd.read.code pc
  | .tlbcmdWriteNi pc => Request.auxWrite (cfg.auxId .tlbcommand) TlbCmd.writeNi.code pc
  | .tlbcmdInsert pc => Request.auxWrite (cfg.auxId .tlbcommand) TlbCmd.insert.code pc
  | .tlbcmdDelete pc => Request.auxWrite (cfg.auxId .tlbcommand) TlbCmd.delete.code pc

/-! ### Requests as numbers, bit 0 the least significant bit of the header -/

/-- The request whose words are the bits of `w`: the header is bits 31:0, operand word `k` is the 32 bits from
bit `32 * (k + 1)`. -/
def Request.ofBits (w : Nat) : Request :=
  { header := BitVec.ofNat 32 w
    op0 := BitVec.ofNat 32 (w >>> 32)
    op1 := BitVec.ofNat 32 (w >>> 64)
    op2 := BitVec.ofNat 32 (w >>> 96)
    op3 := BitVec.ofNat 32 (w >>> 128)
    op4 := BitVec.ofNat 32 (w >>> 160)
    op5 := BitVec.ofNat 32 (w >>> 192) }

/-- The request of an opcode-table row of `nbits` bits: every bit above `nbits` is 0. -/
def Request.ofTableWord (nbits w : Nat) : Request := Request.ofBits (w % 2 ^ nbits)

/-- The request this decoder reads from a word of the opcode table, for the implementation of the spec's vectors.
A row of the table with format TLBCOMMAND gives a command CODE, not a header: as a header the same number names
another request (0x1 none, 0x2 AUX_READ, 0x5 RETURN, 0x7 RESET, 0x8 TLB_FLUSH_EXT), and a code reaches the block
as the second operand of `AUX_WRITE TLBCOMMAND` (30_encoding R129) [log 3]. -/
def decodeTableWord (nbits w : Nat) : Option Instr :=
  match decode Config.vectors (Request.ofTableWord nbits w) with
  | .instr i => some i
  | .rejected _ => none

end Sys2Proof
end

