-- ==== Sys2Proof/Machine/State.lean ====
section
/-! DEFINITION. The state of the block, as plain data (10_state), the reasons a step could stop, and the state
right after reset (70 R320, R321). -/

namespace Sys2Proof.Machine

/-- The status word as its flags (10_state R27; packed by 30_encoding R105, R106). -/
structure Status where
  /-- halted -/
  h : Bool
  /-- previous-privilege mirror -/
  pu : Bool
  /-- lock, set by entry -/
  l : Bool
  /-- active exception -/
  ae : Bool
  /-- delay-slot instruction in flight -/
  de : Bool
  /-- privilege: user -/
  u : Bool
  v : Bool
  c : Bool
  n : Bool
  z : Bool
  /-- register-bank select -/
  rb : Bool
  /-- interrupts enabled -/
  ie : Bool
  deriving DecidableEq, Repr

/-- The CPU registers the block reads and writes (10_state R20 to R26, R32, R33). -/
structure CpuRegs where
  /-- the registers that exist once; a banked register's slot here is unused when there are two banks -/
  core : Vector Word 32
  /-- `bank[0]`, of which the slots of `BANKED_SET` are used -/
  bank0 : Vector Word 32
  /-- `bank[1]` -/
  bank1 : Vector Word 32
  userSp : Word
  bta : Word
  lpCount : Word
  lpStart : Word
  lpEnd : Word
  eiBase : Word
  ldiBase : Word
  jliBase : Word
  deriving DecidableEq, Repr

/-- The exception registers and the fast path's saved status (10_state R30, R31). -/
structure ExcRegs where
  ecr : Word
  efa : Word
  eret : Word
  erstatus : Word
  erbta : Word
  ivb : Word
  statusP0 : Word
  deriving DecidableEq, Repr

/-- A TLB entry (10_state R34). The page numbers are `32 - PAGE_BITS` bits wide, held in a word [log 18]. -/
structure TlbEntry where
  vpn : Word
  asid : Byte
  g : Bool
  v : Bool
  sz : Bool
  l : Bool
  s : Bool
  ppn : Word
  /-- `KR KW KX UR UW UX`, bit 5 to bit 0 (30_encoding R111) -/
  perm : BitVec 6
  c : Bool
  deriving DecidableEq, Repr

/-- `TLBINDEX` (30_encoding R112). -/
structure TlbIndex where
  /-- the command found no entry -/
  e : Bool
  /-- no valid entry to insert -/
  nv : Bool
  index : BitVec 10
  deriving DecidableEq, Repr

/-- `PID` (30_encoding R114). -/
structure Pid where
  /-- the MMU enable -/
  t : Bool
  asid : Byte
  deriving DecidableEq, Repr

/-- The TLB and its registers (10_state R34 to R37). -/
structure Tlb where
  /-- `tlb[set][way]` at index `set * 4 + way` (10_state R35) -/
  entries : Vector TlbEntry 1024
  /-- the victim pointers (10_state R36) -/
  rr : Vector (BitVec 2) 256
  pd0 : Word
  pd1 : Word
  index : TlbIndex
  pid : Pid
  sasid0 : Word
  sasid1 : Word
  deriving DecidableEq, Repr

/-- An MPU region (10_state R38). -/
structure Region where
  valid : Bool
  /-- address bits 31 to 5 -/
  base : BitVec 27
  size : BitVec 5
  perm : BitVec 6
  deriving DecidableEq, Repr

/-- The MPU (10_state R38 to R40): 16 region slots, of which the first `MPU_REGIONS` exist. -/
structure Mpu where
  regions : Vector Region 16
  /-- `MPU_EN.EN` -/
  en : Bool
  /-- `MPU_EN.DPERM` -/
  dperm : BitVec 6
  ecr : Word
  deriving DecidableEq, Repr

/-- One interrupt source (10_state R41). -/
structure IrqSource where
  prio : BitVec 4
  /-- pulse triggered -/
  trig : Bool
  en : Bool
  /-- the pulse latch -/
  plat : Bool
  deriving DecidableEq, Repr

/-- `IRQ_CTRL` (10_state R48, 30_encoding R125). -/
structure IrqCtrl where
  nr : BitVec 5
  b : Bool
  l : Bool
  u : Bool
  lp : Bool
  deriving DecidableEq, Repr

/-- The interrupt controller (10_state R41 to R48): 240 source slots, of which the first `NUM_IRQ` exist. -/
structure Irq where
  sources : Vector IrqSource 240
  /-- the inputs `line[s]` (10_state R42) -/
  lines : Vector Bool 240
  /-- the input `irq_req` -/
  irqReq : Bool
  hint : Byte
  select : Byte
  act : BitVec 16
  actU : Bool
  icause : Vector Byte 16
  ctrl : IrqCtrl
  deriving DecidableEq, Repr

/-- A flush request to the downstream cache (20_memory R83). -/
inductive Flush where
  /-- the whole downstream cache of this CPU -/
  | all
  /-- one page for one address space -/
  | page (vpn : Word) (asid : Byte)
  deriving DecidableEq, Repr

/-- The fault descriptor (10_state R49, 30_encoding R95). -/
structure FaultDesc where
  vector : Byte
  cause : Byte
  param : Byte
  faddr : Word
  deriving DecidableEq, Repr

/-- The outputs of the request last performed (10_state R49), and the reason if it was refused (30_encoding R96).
Every request clears them first (R93) [log 14]. -/
structure Outputs where
  nextPc : Option Word
  paddr : Option Word
  /-- `R W X`, bit 2 to bit 0 -/
  permOut : Option (BitVec 3)
  cacheable : Option Bool
  pageGranular : Option Bool
  fault : Option FaultDesc
  rdata : Option Word
  flushOut : List Flush
  refusal : Option RefuseReason
  deriving DecidableEq, Repr

/-- Physical memory: the bytes that differ from what an unlisted address reads as, addresses rising
(`Memory.wf`). -/
abbrev Memory := List Host.Cell

/-- The state of the block: everything 10_state lists, the parameters of the machine, and its inputs. -/
structure State where
  /-- the implementation parameters, which no step changes [log 1] -/
  cfg : Config
  cpu : CpuRegs
  status : Status
  exc : ExcRegs
  tlb : Tlb
  mpu : Mpu
  irq : Irq
  /-- physical memory (20_memory R70) -/
  mem : Memory
  /-- what other agents of physical memory write before each following access, first access first
  (20_memory R76) [log 9] -/
  otherAgents : List (List Host.Cell)
  /-- the requests still to be performed, in order (30_encoding R90) [log 2] -/
  inbox : List Request
  /-- the outputs of the request last performed -/
  out : Outputs
  /-- the `refused` mark (10_state R50) [log 4] -/
  refused : Bool
  /-- how many RESET requests have taken their draws: the free values' counter [log 6] -/
  resets : Nat
  deriving DecidableEq, Repr

/-- No step of this machine ends in a fault: every exception of the spec is vectored (60_exceptions R280), a
physical access never faults (20_memory R75), and a refused request only sets a mark (30_encoding R96). -/
inductive Fault where
  deriving DecidableEq, Repr

/-- The one reason a step can have no meaning. -/
inductive Refusal where
  /-- Raised by `exec` for a request this model gives no meaning yet. Safe: the run stops. No arm of `exec`
  answers it. -/
  | notModelled (mnemonic : String)
  deriving DecidableEq, Repr

/-- The status word 0: kernel, interrupts off, no exception active (70 R320). -/
def Status.zero : Status :=
  { h := false, pu := false, l := false, ae := false, de := false, u := false, v := false, c := false,
    n := false, z := false, rb := false, ie := false }

/-- No output set (30_encoding R93). -/
def Outputs.none : Outputs :=
  { nextPc := .none, paddr := .none, permOut := .none, cacheable := .none, pageGranular := .none, fault := .none,
    rdata := .none, flushOut := [], refusal := .none }

/-- The CPU registers at reset. DESIGN CHOICE 0 [log 5]: the spec gives draws. -/
def CpuRegs.reset : CpuRegs :=
  { core := Vector.replicate 32 0, bank0 := Vector.replicate 32 0, bank1 := Vector.replicate 32 0, userSp := 0,
    bta := 0, lpCount := 0, lpStart := 0, lpEnd := 0, eiBase := 0, ldiBase := 0, jliBase := 0 }

/-- The exception registers at reset: `IVB` is `IVB_RESET` (70 R320); the others DESIGN CHOICE 0 [log 5]. -/
def ExcRegs.reset (cfg : Config) : ExcRegs :=
  { ecr := 0, efa := 0, eret := 0, erstatus := 0, erbta := 0, ivb := cfg.ivbReset, statusP0 := 0 }

/-- A TLB entry at reset: invalid (70 R320); the other fields DESIGN CHOICE 0 [log 5]. -/
def TlbEntry.reset : TlbEntry :=
  { vpn := 0, asid := 0, g := false, v := false, sz := false, l := false, s := false, ppn := 0, perm := 0,
    c := false }

/-- The TLB at reset: every entry invalid, every victim pointer 0, the MMU off (70 R320); the registers' other
fields DESIGN CHOICE 0 [log 5]. -/
def Tlb.reset : Tlb :=
  { entries := Vector.replicate 1024 TlbEntry.reset, rr := Vector.replicate 256 0, pd0 := 0, pd1 := 0,
    index := { e := false, nv := false, index := 0 }, pid := { t := false, asid := 0 }, sasid0 := 0,
    sasid1 := 0 }

/-- A region at reset: invalid (70 R320); the other fields DESIGN CHOICE 0 [log 5]. -/
def Region.reset : Region := { valid := false, base := 0, size := 0, perm := 0 }

/-- The MPU at reset: off, every region invalid (70 R320); the rest DESIGN CHOICE 0 [log 5]. -/
def Mpu.reset : Mpu := { regions := Vector.replicate 16 Region.reset, en := false, dperm := 0, ecr := 0 }

/-- Interrupt source `s` at reset (10_state R41, 70 R320): hardware sources enabled, software sources not, the
least urgent priority, level triggered, no latch. -/
def IrqSource.reset (cfg : Config) (s : Nat) : IrqSource :=
  { prio := BitVec.ofNat 4 (cfg.numPrio - 1), trig := false, en := decide (s < cfg.numHwIrq), plat := false }

/-- A slot at or above `NUM_IRQ`, which is no source. DESIGN CHOICE [log 5]; nothing reads it. -/
def IrqSource.absent : IrqSource := { prio := 0, trig := false, en := false, plat := false }

/-- The interrupt controller at reset (70 R320). The input lines have no reset value of the block's own
(10_state R42): DESIGN CHOICE 0, like `IRQ_SELECT` and the cause slots [log 5]. -/
def Irq.reset (cfg : Config) : Irq :=
  { sources :=
      ⟨⟨(List.range 240).map fun s =>
        if s < cfg.numIrq then IrqSource.reset cfg s else IrqSource.absent⟩, by simp⟩
    lines := Vector.replicate 240 false, irqReq := false, hint := 0, select := 0, act := 0, actU := false,
    icause := Vector.replicate 16 0, ctrl := { nr := 0, b := false, l := false, u := false, lp := false } }

/-- The machine right after reset (70 R320, R321), with the parameters of the spec's vectors [log 1]. The outputs
are those the reset sequence leaves: `next_pc` is the word at `IVB_RESET` of a memory that lists nothing, and the
downstream cache is flushed. Nothing is waiting in the inbox [log 2]. -/
def State.reset : State :=
  { cfg := Config.vectors, cpu := CpuRegs.reset, status := Status.zero, exc := ExcRegs.reset Config.vectors,
    tlb := Tlb.reset, mpu := Mpu.reset, irq := Irq.reset Config.vectors, mem := [], otherAgents := [],
    inbox := [], out := { Outputs.none with nextPc := some 0, flushOut := [.all] }, refused := false,
    resets := 0 }

end Sys2Proof.Machine
end

