-- ==== Sys2Proof/Machine/Operands.lean ====
section
/-! DEFINITION. Fields and layouts: how addresses split into page and offset, what the access kinds and vectors are
numbered, and how each register packs its fields into a word (30_encoding R104 to R126). Reserved bits read 0 and
are ignored when written. -/

namespace Sys2Proof.Machine

/-! ### Words from bits -/

/-- A flag at bit `k` of a word. -/
def bitAt (b : Bool) (k : Nat) : Word := if b then 1#32 <<< k else 0

/-- `mask(n)` of 00_scope section 5: the low `n` bits set, all 32 of them for `n = 32`. -/
def lowMask (n : Nat) : Word := (1#32 <<< n) - 1

/-- The vector of `n` elements whose element `i` is `f i`. -/
def tabulate {α : Type} (n : Nat) (f : Nat → α) : Vector α n :=
  ⟨⟨(List.range n).map f⟩, by simp⟩

/-- The vector with `f` applied to every element. -/
def mapEach {α : Type} {n : Nat} (f : α → α) (v : Vector α n) : Vector α n :=
  ⟨⟨v.toList.map f⟩, by simp⟩

/-! ### Access kinds, vectors, cause bytes -/

/-- The number of an access kind, which is also the cause byte of translation faults (30_encoding R104). -/
def kindCode : AccessKind → Byte
  | .fetch => 1
  | .read => 2
  | .write => 3

/-- `allows(eff, kind)` for the rights `R W X` of one privilege (41_tlb R145). -/
def allows (eff : BitVec 3) : AccessKind → Bool
  | .read => eff.getLsbD 2
  | .write => eff.getLsbD 1
  | .fetch => eff.getLsbD 0

/-- InstructionError (30_encoding R108). -/
def vecInstructionError : Byte := 2
/-- MachineCheck (30_encoding R108). -/
def vecMachineCheck : Byte := 3
/-- TLBMissI (30_encoding R108). -/
def vecTlbMissI : Byte := 4
/-- TLBMissD (30_encoding R108). -/
def vecTlbMissD : Byte := 5
/-- ProtV (30_encoding R108). -/
def vecProtV : Byte := 6
/-- PrivilegeV (30_encoding R108). -/
def vecPrivilegeV : Byte := 7

/-- The vector of interrupt source `s` (43_interrupts R230). -/
def sourceVector (s : Nat) : Byte := BitVec.ofNat 8 (16 + s)

/-- The largest legal register-pair count, `MAX_IRQ_PAIRS` (00_scope R4). -/
def maxIrqPairs : Nat := 14

/-- The cause register of an exception (30_encoding R107). -/
def causeWord (vector cause param : Byte) : Word :=
  (vector.setWidth 32 <<< 16) ||| (cause.setWidth 32 <<< 8) ||| param.setWidth 32

/-- The exception fault address: the faulting PC for the classes that latch it, the fault address for the others
(60_exceptions R290). -/
def efaValue (vector : Byte) (faddr pc : Word) : Word :=
  if vector.toNat ∈ [0, 1, 2, 3, 7, 8, 9] then pc else faddr

/-! ### Pages (41_tlb R140) -/

/-- The virtual page number of an address. -/
def vpnOf (cfg : Config) (a : Word) : Word := a >>> cfg.pageBits

/-- The offset of an address in its page. -/
def offsetOf (cfg : Config) (a : Word) : Word := a &&& lowMask cfg.pageBits

/-- The set a page number selects: its low 8 bits. -/
def tlbSet (vpn : Word) : BitVec 8 := vpn.setWidth 8

/-- The entry index of a set and a way, `set * 4 + way` (10_state R35). -/
def entryIndex (st : BitVec 8) (way : BitVec 2) : BitVec 10 := st ++ way

/-- The set of an entry index, bits 9:2 (41_tlb R152). -/
def indexSet (i : BitVec 10) : BitVec 8 := i.extractLsb' 2 8

/-- The way of an entry index, bits 1:0 (41_tlb R152). -/
def indexWay (i : BitVec 10) : BitVec 2 := i.extractLsb' 0 2

/-! ### TLB registers -/

/-- The bits of `PD0` that hold a field (30_encoding R110). -/
def pd0Mask (cfg : Config) : Word := ~~~(lowMask cfg.pageBits) ||| 0x1FFF#32

/-- The bits of `PD1` that hold a field (30_encoding R111). -/
def pd1Mask (cfg : Config) : Word := ~~~(lowMask cfg.pageBits) ||| 0x1FC#32

/-- `PD0.VPN` (30_encoding R110). -/
def pd0Vpn (cfg : Config) (pd0 : Word) : Word := pd0 >>> cfg.pageBits

/-- `PD0.ASID` (30_encoding R110). -/
def pd0Asid (pd0 : Word) : Byte := pd0.setWidth 8

/-- `PD0.V` (30_encoding R110). -/
def pd0V (pd0 : Word) : Bool := pd0.getLsbD 9

/-- The entry two descriptor words hold (41_tlb R151). -/
def toEntry (cfg : Config) (pd0 pd1 : Word) : TlbEntry :=
  { vpn := pd0Vpn cfg pd0
    s := pd0.getLsbD 12
    l := pd0.getLsbD 11
    sz := pd0.getLsbD 10
    v := pd0V pd0
    g := pd0.getLsbD 8
    asid := pd0Asid pd0
    ppn := pd1 >>> cfg.pageBits
    perm := pd1.extractLsb' 3 6
    c := pd1.getLsbD 2 }

/-- The first descriptor word of an entry (41_tlb R151). -/
def pd0Of (cfg : Config) (e : TlbEntry) : Word :=
  (e.vpn <<< cfg.pageBits) ||| bitAt e.s 12 ||| bitAt e.l 11 ||| bitAt e.sz 10 ||| bitAt e.v 9 |||
    bitAt e.g 8 ||| e.asid.setWidth 32

/-- The second descriptor word of an entry (41_tlb R151). -/
def pd1Of (cfg : Config) (e : TlbEntry) : Word :=
  (e.ppn <<< cfg.pageBits) ||| (e.perm.setWidth 32 <<< 3) ||| bitAt e.c 2

/-- The `PD0` a miss stages: the page, the current ASID, valid (41_tlb R147). -/
def stagedPd0 (cfg : Config) (vaddr : Word) (asid : Byte) : Word :=
  (vpnOf cfg vaddr <<< cfg.pageBits) ||| bitAt true 9 ||| asid.setWidth 32

/-- `TLBINDEX` as a word (30_encoding R112). -/
def packIndex (x : TlbIndex) : Word := bitAt x.e 31 ||| bitAt x.nv 30 ||| x.index.setWidth 32

/-- A word as `TLBINDEX` (30_encoding R112). -/
def unpackIndex (w : Word) : TlbIndex :=
  { e := w.getLsbD 31, nv := w.getLsbD 30, index := w.setWidth 10 }

/-- `PID` as a word (30_encoding R114). -/
def packPid (p : Pid) : Word := bitAt p.t 31 ||| p.asid.setWidth 32

/-- A word as `PID` (30_encoding R114). -/
def unpackPid (w : Word) : Pid := { t := w.getLsbD 31, asid := w.setWidth 8 }

/-- The shared-ASID test of an entry's ASID against the mask `SASID1:SASID0` (41_tlb R142, 30_encoding R115). -/
def sharedMatch (cfg : Config) (sasid1 sasid0 : Word) (asid : Byte) : Bool :=
  match cfg.sharedTest with
  | .sasidBit => (sasid1 ++ sasid0).getLsbD (asid.setWidth 6).toNat
  | .other => Config.otherSharedMatch (sasid1 ++ sasid0) asid

/-- The rights `R W X` a TLB entry gives one privilege: the user bits to user mode, the kernel bits to kernel mode
(41_tlb R145, R149). -/
def effTlb (user : Bool) (perm : BitVec 6) : BitVec 3 :=
  if user then perm.extractLsb' 0 3 else perm.extractLsb' 3 3

/-! ### MPU registers -/

/-- `size_bits(SIZE)` (30_encoding R117). -/
def sizeBits (size : BitVec 5) : Nat := if size.toNat < 4 then 5 else size.toNat + 1

/-- `region_mask(SIZE)` (30_encoding R117). -/
def regionMask (size : BitVec 5) : Word := ~~~(lowMask (sizeBits size))

/-- `base_addr` of a region (42_mpu R190). -/
def baseAddr (r : Region) : Word := r.base.setWidth 32 <<< 5

/-- The lowest address a region covers (42_mpu R190). -/
def regionLo (r : Region) : Word := baseAddr r &&& regionMask r.size

/-- The highest address a region covers (42_mpu R190). -/
def regionHi (r : Region) : Word := regionLo r + lowMask (sizeBits r.size)

/-- A region covers an address (42_mpu R190, R191). -/
def covers (r : Region) (a : Word) : Bool := (a &&& regionMask r.size) == (baseAddr r &&& regionMask r.size)

/-- `RDB[i]` as a word (30_encoding R116). -/
def packRdb (r : Region) : Word := baseAddr r ||| bitAt r.valid 0

/-- A word written to `RDB[i]` (30_encoding R116). -/
def unpackRdb (w : Word) (r : Region) : Region :=
  { r with base := w.extractLsb' 5 27, valid := w.getLsbD 0 }

/-- `RDP[i]` as a word (30_encoding R117). -/
def packRdp (r : Region) : Word := (r.size.setWidth 32 <<< 9) ||| (r.perm.setWidth 32 <<< 3)

/-- A word written to `RDP[i]` (30_encoding R117). -/
def unpackRdp (w : Word) (r : Region) : Region :=
  { r with size := w.extractLsb' 9 5, perm := w.extractLsb' 3 6 }

/-- `MPU_EN` as a word (30_encoding R119). -/
def packMpuEn (en : Bool) (dperm : BitVec 6) : Word := bitAt en 30 ||| (dperm.setWidth 32 <<< 3)

/-- `MPU_ECR` of a violation (30_encoding R118): ProtV, the access kind, the region or `MPU_REGIONS`. -/
def mpuEcrWord (kind : AccessKind) (region : Nat) : Word :=
  (vecProtV.setWidth 32 <<< 16) ||| ((kindCode kind).setWidth 32 <<< 8) ||| BitVec.ofNat 32 region

/-- The rights `R W X` a permission set gives one privilege in the MPU: the kernel has the user's too
(42_mpu R193). -/
def effMpu (user : Bool) (perm : BitVec 6) : BitVec 3 :=
  if user then perm.extractLsb' 0 3 else perm.extractLsb' 3 3 ||| perm.extractLsb' 0 3

/-! ### Interrupt registers -/

/-- `IRQ_CTRL` as a word (30_encoding R125). -/
def packIrqCtrl (c : IrqCtrl) : Word :=
  c.nr.setWidth 32 ||| bitAt c.b 9 ||| bitAt c.l 10 ||| bitAt c.u 11 ||| bitAt c.lp 13

/-- A word as `IRQ_CTRL` (30_encoding R125). -/
def unpackIrqCtrl (w : Word) : IrqCtrl :=
  { nr := w.setWidth 5, b := w.getLsbD 9, l := w.getLsbD 10, u := w.getLsbD 11, lp := w.getLsbD 13 }

/-- The bits of `ACT` that exist: the priorities below `NUM_PRIO` (30_encoding R124). -/
def actMask (cfg : Config) : BitVec 16 := (lowMask cfg.numPrio).setWidth 16

/-- `IRQ_ACT` as a word (30_encoding R124, 43_interrupts R238). -/
def packIrqAct (cfg : Config) (act : BitVec 16) (actU : Bool) : Word :=
  bitAt actU 31 ||| (act &&& actMask cfg).setWidth 32

/-- `lsb(b)`: the lowest set bit of a bitmap, none of an empty one (00_scope section 5). -/
def lsb? (b : BitVec 16) : Option Nat := (List.range 16).find? fun p => b.getLsbD p

/-- `popcount(b)` (00_scope section 5). -/
def popcount (b : BitVec 16) : Nat := (List.range 16).countP fun p => b.getLsbD p

end Sys2Proof.Machine
end

