-- ==== Sys2Proof/Machine/Flags.lean ====
section
/-! DEFINITION. The status word: its packer and unpacker (30_encoding R105, R106), and what entry makes of its
flags (43_interrupts R254, 60_exceptions R284, R285, R288). The condition flags are stored and moved, never
computed (10_state R28). -/

namespace Sys2Proof.Machine

/-- `pack_status` (30_encoding R106). -/
def packStatus (s : Status) : Word :=
  bitAt s.ie 31 ||| bitAt s.rb 16 ||| bitAt s.z 11 ||| bitAt s.n 10 ||| bitAt s.c 9 ||| bitAt s.v 8 |||
    bitAt s.u 7 ||| bitAt s.de 6 ||| bitAt s.ae 5 ||| bitAt s.l 2 ||| bitAt s.pu 1 ||| bitAt s.h 0

/-- `unpack_status` (30_encoding R106): `RB` reads 0 when there is one bank (10_state R22). -/
def unpackStatus (cfg : Config) (w : Word) : Status :=
  { h := w.getLsbD 0
    pu := w.getLsbD 1
    l := w.getLsbD 2
    ae := w.getLsbD 5
    de := w.getLsbD 6
    u := w.getLsbD 7
    v := w.getLsbD 8
    c := w.getLsbD 9
    n := w.getLsbD 10
    z := w.getLsbD 11
    rb := decide (cfg.numBanks = 2) && w.getLsbD 16
    ie := w.getLsbD 31 }

/-- The bits of the status word that hold a flag (30_encoding R106). -/
def statusMask (cfg : Config) : Word := if cfg.numBanks = 2 then 0x80010FE7 else 0x80000FE7

/-- `status_entry_update()` of both interrupt paths (43_interrupts R254). -/
def entryUpdate (s : Status) : Status :=
  { s with pu := s.u, u := false, h := false, l := true, de := false }

/-- The status flags of exception entry: kernel, interrupts off, exception active, the low-nibble step
(60_exceptions R285, R288). `V`, `C`, `N`, `Z` and `RB` stay. -/
def exceptionStatus (s : Status) : Status :=
  { s with u := false, ie := false, ae := true, h := false, pu := s.u, l := true, de := false }

/-- The status flags of a double fault: the same steps but for `AE`, which is already 1 (60_exceptions R284). -/
def doubleFaultStatus (s : Status) : Status :=
  { s with pu := s.u, u := false, ie := false, h := false, l := true, de := false }

end Sys2Proof.Machine
end

