-- ==== Sys2Proof/Machine/Ops.lean ====
section
/-! DEFINITION. The shared operations: physical memory (20_memory R70 to R77), the other agents of it (R76), the
general registers through the bank selector and the stack-pointer switch (10_state R23, R24), the outputs
(30_encoding R93 to R96), taking an exception (60_exceptions R284, R285) and returning from one (R297). -/

namespace Sys2Proof.Machine

/-! ### Bytes of memory -/

/-- What a byte that nothing has written reads as. DESIGN CHOICE 0 [log 8]: the spec takes memory as a total
function it does not fix (20_memory R75). -/
def Memory.unlisted : Byte := 0

/-- The byte at an address. -/
def Memory.read : Memory → Nat → Byte
  | [], _ => Memory.unlisted
  | (b, x) :: m, a => if a = b then x else Memory.read m a

/-- A cell in front of a memory, left out where it holds what an unlisted address reads as. -/
def Memory.cell (a : Nat) (x : Byte) (m : Memory) : Memory :=
  if x = Memory.unlisted then m else (a, x) :: m

/-- The memory with one byte written. -/
def Memory.write : Memory → Nat → Byte → Memory
  | [], a, x => Memory.cell a x []
  | (b, y) :: m, a, x =>
    if a < b then Memory.cell a x ((b, y) :: m)
    else if a = b then Memory.cell a x m
    else (b, y) :: Memory.write m a x

/-- The canonical form above an address: addresses rise, stay below `2^32`, and no cell holds what an unlisted
address reads as. -/
def Memory.wfFrom : Nat → Memory → Bool
  | _, [] => true
  | lo, (a, x) :: m =>
    decide (lo ≤ a) && decide (a < 2 ^ 32) && decide (x ≠ Memory.unlisted) && Memory.wfFrom (a + 1) m

/-- The canonical form of a memory: equal memories are equal lists. -/
def Memory.wf (m : Memory) : Bool := Memory.wfFrom 0 m

/-- The memory after a batch of byte writes, in order; addresses wrap modulo `2^32` (20_memory R72). -/
def Memory.writeCells (m : Memory) (cells : List Host.Cell) : Memory :=
  cells.foldl (fun m c => m.write (c.1 % 2 ^ 32) c.2) m

/-! ### Words of memory -/

/-- The address of byte `k` of a word, modulo `2^32` (20_memory R72). -/
def byteAddr (a : Word) (k : Nat) : Nat := (a + BitVec.ofNat 32 k).toNat

/-- `MemRead(a, 4)`: four bytes assembled in `ENDIAN` order (20_memory R72). The little-endian order is the rule's;
the big-endian one is its mirror [log 17]. -/
def Memory.readWord (m : Memory) (en : Endian) (a : Word) : Word :=
  match en with
  | .little =>
    m.read (byteAddr a 3) ++ m.read (byteAddr a 2) ++ m.read (byteAddr a 1) ++ m.read (byteAddr a 0)
  | .big =>
    m.read (byteAddr a 0) ++ m.read (byteAddr a 1) ++ m.read (byteAddr a 2) ++ m.read (byteAddr a 3)

/-- Byte `k` of a word: bits `8k+7` to `8k`. -/
def byteOf (x : Word) (k : Nat) : Byte := x.extractLsb' (8 * k) 8

/-- The byte of a word that goes to byte address `k` of it (20_memory R73). -/
def storedByte (en : Endian) (x : Word) (k : Nat) : Byte :=
  match en with
  | .little => byteOf x k
  | .big => byteOf x (3 - k)

/-- `MemWrite(a, 4, x)` (20_memory R73). -/
def Memory.writeWord (m : Memory) (en : Endian) (a x : Word) : Memory :=
  (((m.write (byteAddr a 0) (storedByte en x 0)).write (byteAddr a 1) (storedByte en x 1)).write
    (byteAddr a 2) (storedByte en x 2)).write (byteAddr a 3) (storedByte en x 3)

/-! ### Physical accesses of the block -/

/-- What other agents write before the block's next access happens: the next batch of their writes, each byte of it
(20_memory R76) [log 9]. -/
def State.agentsMove (s : State) : State :=
  match s.otherAgents with
  | [] => s
  | batch :: rest => { s with mem := s.mem.writeCells batch, otherAgents := rest }

/-- The word at an address, as the next read of the block finds it. -/
def State.word (s : State) (a : Word) : Word := s.mem.readWord s.cfg.endian a

/-- One byte of physical memory. -/
def State.byte (s : State) (a : Nat) : Byte := s.mem.read a

/-- `MemWrite(a, 4, x)` as an access of the block: other agents may have written before it. -/
def State.memWrite (s : State) (a x : Word) : State :=
  let s := s.agentsMove
  { s with mem := s.mem.writeWord s.cfg.endian a x }

/-! ### General registers -/

/-- `SP`, `ILINK` and `BLINK` (10_state R20). -/
def regSp : Fin 32 := 28
def regIlink : Fin 32 := 29
def regBlink : Fin 32 := 31

/-- Register `i` goes through the banks (10_state R21, R23). -/
def isBanked (cfg : Config) (i : Fin 32) : Bool :=
  decide (cfg.numBanks = 2) && cfg.bankedSet.getLsbD i.val

/-- `x[i]` (10_state R23). -/
def State.readReg (s : State) (i : Fin 32) : Word :=
  if isBanked s.cfg i then (if s.status.rb then s.cpu.bank1.get i else s.cpu.bank0.get i)
  else s.cpu.core.get i

/-- `x[i] <- v` (10_state R23). -/
def State.writeReg (s : State) (i : Fin 32) (v : Word) : State :=
  if isBanked s.cfg i then
    if s.status.rb then { s with cpu.bank1 := s.cpu.bank1.set i.val v }
    else { s with cpu.bank0 := s.cpu.bank0.set i.val v }
  else { s with cpu.core := s.cpu.core.set i.val v }

/-- `SwitchSP()`: exchange `SP` and `USER_SP` (10_state R24). -/
def State.switchSp (s : State) : State :=
  { s.writeReg regSp s.cpu.userSp with cpu.userSp := s.readReg regSp }

/-- `SwitchSP()` where a condition asks for it. -/
def State.switchSpIf (b : Bool) (s : State) : State := if b then s.switchSp else s

/-- `Push(w)`: the stack pointer moves down, then the word is written (43_interrupts R256). -/
def State.push (s : State) (w : Word) : State :=
  let s := s.writeReg regSp (s.readReg regSp - 4)
  s.memWrite (s.readReg regSp) w

/-- The state after `Pop()` (43_interrupts R256). -/
def State.popped (s : State) : State :=
  let s := s.agentsMove
  s.writeReg regSp (s.readReg regSp + 4)

/-- The word `Pop()` returns (43_interrupts R256). -/
def State.popWord (s : State) : Word :=
  let s := s.agentsMove
  s.word (s.readReg regSp)

/-- `x[i] <- Pop()`. -/
def State.popReg (s : State) (i : Fin 32) : State := s.popped.writeReg i s.popWord

/-! ### Outputs -/

/-- The outputs cleared, as every request begins (30_encoding R93). -/
def State.clearOut (s : State) : State := { s with out := Outputs.none }

/-- `flush(scope)` (20_memory R83). -/
def State.flush (s : State) (f : Flush) : State := { s with out.flushOut := s.out.flushOut ++ [f] }

/-- `refuse reason`: the mark is set, the reason named, and nothing else changes (30_encoding R96). -/
def State.refuse (s : State) (reason : RefuseReason) : State :=
  { s with out := { Outputs.none with refusal := some reason }, refused := true }

/-- `rdata <- w`. -/
def State.answer (s : State) (w : Word) : State := { s with out.rdata := some w }

/-- The outputs of a translation that succeeds (20_memory R79). -/
def State.grant (s : State) (paddr : Word) (perm : BitVec 3) (cacheable pageGranular : Bool) : State :=
  { s with
    out.paddr := some paddr, out.permOut := some perm, out.cacheable := some cacheable,
    out.pageGranular := some pageGranular }

/-- `pc <- target` (30_encoding R94). -/
def State.jump (s : State) (target : Word) : State := { s with out.nextPc := some target }

/-! ### Taking an exception and returning from one -/

/-- The vector multiplexer: control goes to the word of the vector table (60_exceptions R292). -/
def State.jumpVector (s : State) (vector : Byte) : State :=
  let s := s.agentsMove
  s.jump (s.word (s.exc.ivb + (vector.setWidth 32 <<< 2)))

/-- The fault descriptor of a raise (30_encoding R95). -/
def State.describeFault (s : State) (vector cause param : Byte) (faddr : Word) : State :=
  { s with out.fault := some { vector, cause, param, faddr } }

/-- Exception entry with no exception active, in the order of 60_exceptions R285. -/
def State.enterException (s : State) (vector cause param : Byte) (faddr pc retPc : Word) : State :=
  let old := s.status
  let s :=
    { s with
      exc.erstatus := packStatus old, exc.erbta := s.cpu.bta, exc.eret := retPc,
      exc.ecr := causeWord vector cause param, exc.efa := efaValue vector faddr pc }
  let s := s.switchSpIf old.u
  let s := { s with status := exceptionStatus old }
  (s.jumpVector vector).describeFault vector cause param faddr

/-- Double fault: the fixed MachineCheck class, both engines off, the first fault's snapshots kept
(60_exceptions R284). The descriptor names the class the dispatcher used [log 13]. -/
def State.doubleFault (s : State) (faddr pc : Word) : State :=
  let s := { s with tlb.pid.t := false, mpu.en := false }
  let s := s.flush .all
  let s :=
    { s with
      exc.ecr := causeWord vecMachineCheck 0 0, exc.efa := pc, status := doubleFaultStatus s.status }
  (s.jumpVector vecMachineCheck).describeFault vecMachineCheck 0 0 faddr

/-- `raise(vector, cause, param, faddr, pc, ret_pc)` (60_exceptions R284, R285). -/
def State.raise (s : State) (vector cause param : Byte) (faddr pc retPc : Word) : State :=
  if s.status.ae then s.doubleFault faddr pc
  else s.enterException vector cause param faddr pc retPc

/-- A raise by the block itself: the return address is the faulting instruction (00_scope section 5,
60_exceptions R286). -/
def State.raiseAt (s : State) (vector cause param : Byte) (faddr pc : Word) : State :=
  s.raise vector cause param faddr pc pc

/-- InstructionError of a malformed configuration access (60_exceptions R282, 30_encoding R109). -/
def State.instructionError (s : State) (pc : Word) : State := s.raiseAt vecInstructionError 0 0 pc pc

/-- The privilege check of every auxiliary access, and what a user access does instead (10_state R51,
30_encoding R97, R98). -/
def State.kernelOnly (s : State) (pc : Word) (act : State → State) : State :=
  if s.status.u then s.raiseAt vecPrivilegeV 0 0 pc pc else act s

/-- `exception_return()` (60_exceptions R297). -/
def State.exceptionReturn (s : State) : State :=
  let s := { s with status := unpackStatus s.cfg s.exc.erstatus, cpu.bta := s.exc.erbta }
  let s := s.switchSpIf s.status.u
  s.jump s.exc.eret

end Sys2Proof.Machine
end

