-- ==== Sys2Proof/Machine/Irq.lean ====
section
/-! DEFINITION. The interrupt controller: sources and lines (43_interrupts R230, R231, 10_state R44), the priority
encoder (R242 to R245), entry on the fast and the regular path (R249 to R259) and return (R260 to R262). -/

namespace Sys2Proof.Machine

/-! ### Sources -/

/-- Source `n`; a slot past the last is no source. -/
def State.source (s : State) (n : Nat) : IrqSource := s.irq.sources.getD n IrqSource.absent

/-- Source `n` changed. -/
def State.setSource (s : State) (n : Nat) (e : IrqSource) : State :=
  { s with irq.sources := s.irq.sources.setIfInBounds n e }

/-- `line[n]` (10_state R42). -/
def State.lineOf (s : State) (n : Nat) : Bool := s.irq.lines.getD n false

/-- `line[n] <- level`. -/
def State.setLine (s : State) (n : Nat) (level : Bool) : State :=
  { s with irq.lines := s.irq.lines.setIfInBounds n level }

/-- `pending(n)` (10_state R44). -/
def State.pending (s : State) (n : Nat) : Bool :=
  if n < s.cfg.numHwIrq then (if (s.source n).trig then (s.source n).plat else s.lineOf n)
  else decide (s.irq.hint.toNat = 16 + n)

/-- `eligible(n)` (43_interrupts R243). -/
def State.eligible (s : State) (n : Nat) : Bool := (s.source n).en && s.pending n

/-! ### Selection -/

/-- The gate (43_interrupts R242). -/
def State.gateOpen (s : State) : Bool :=
  !s.status.h && s.status.ie && !s.status.ae && !s.status.de && s.irq.irqReq

/-- The lowest-numbered eligible source of one priority level. -/
def State.selectAt (s : State) (p : Nat) : Option Nat :=
  (List.range s.cfg.numIrq).find? fun n => s.eligible n && decide ((s.source n).prio.toNat = p)

/-- The priority encoder: the levels are scanned from 0 upward (43_interrupts R244). -/
def State.select (s : State) : Option Nat := (List.range 16).findSome? s.selectAt

/-- `cur`: the most urgent active priority, `NUM_PRIO` when nothing is active (43_interrupts R245). -/
def State.currentPrio (s : State) : Nat := (lsb? s.irq.act).getD s.cfg.numPrio

/-! ### Entry -/

/-- The fast path serves a priority (43_interrupts R252, R260). -/
def State.isFast (s : State) (p : Nat) : Bool := decide (p = 0) && s.cfg.firqPresent

/-- `ACT[p] <- 1`. -/
def setAct (act : BitVec 16) (p : Nat) : BitVec 16 := act ||| (1#16 <<< p)

/-- `ACT[p] <- 0`. -/
def clearAct (act : BitVec 16) (p : Nat) : BitVec 16 := act &&& ~~~(1#16 <<< p)

/-- The entry's bookkeeping (43_interrupts R251). -/
def State.markEntry (s : State) (n p : Nat) : State :=
  let irq := s.irq
  let irq := { irq with actU := irq.actU || (decide (irq.act = 0) && s.status.u) }
  let irq := { irq with act := setAct irq.act p, icause := irq.icause.setIfInBounds p (sourceVector n) }
  let s1 := { s with irq := irq }
  if n < s.cfg.numHwIrq then
    if (s.source n).trig then s1.setSource n { s.source n with plat := false } else s1
  else { s1 with irq.hint := 0 }

/-- The fast path (43_interrupts R253). -/
def State.fastEntry (s : State) (n : Nat) (pc : Word) : State :=
  let old := s.status
  let s := { s with exc.statusP0 := packStatus old, cpu.core := s.cpu.core.set regIlink.val pc }
  let s := { s with status := entryUpdate old }
  let s : State := { s with status.rb := decide (s.cfg.numBanks = 2) || s.status.rb }
  let s := s.switchSpIf old.u
  s.jumpVector (sourceVector n)

/-- The pushes a condition asks for, in order. -/
def State.pushIf (s : State) (b : Bool) (words : List Word) : State :=
  if b then words.foldl (fun s w => s.push w) s else s

/-- `for k in 0 .. n-1: Push(x[k])` (43_interrupts R257). -/
def State.pushRegs (s : State) (n : Nat) : State :=
  (List.range n).foldl (fun s k => s.push (s.readReg (Fin.ofNat 32 k))) s

/-- The code-density group of the frame is present (43_interrupts R255, R258). -/
def State.savesBases (s : State) : Bool := s.cfg.codeDensity && s.irq.ctrl.lp

/-- The loop group of the frame is present (43_interrupts R255, R258). -/
def State.savesLoop (s : State) : Bool := s.cfg.hasLoop && s.irq.ctrl.l

/-- How many registers the frame holds: two for each pair (43_interrupts R255). -/
def State.savedRegs (s : State) : Nat := 2 * s.irq.ctrl.nr.toNat

/-- The regular frame, in push order (43_interrupts R255, R257). -/
def State.pushFrame (s : State) (status pc : Word) : State :=
  let s := (s.push status).push pc
  let s := s.pushIf s.savesBases [s.cpu.eiBase, s.cpu.ldiBase, s.cpu.jliBase]
  let s := s.pushIf s.savesLoop [s.cpu.lpCount, s.cpu.lpStart, s.cpu.lpEnd]
  let s := s.pushIf s.irq.ctrl.b [s.readReg regBlink]
  s.pushRegs s.savedRegs

/-- The regular path (43_interrupts R257). -/
def State.regularEntry (s : State) (n : Nat) (pc : Word) : State :=
  let old := s.status
  let s := s.switchSpIf (old.u && !s.irq.ctrl.u)
  let s := s.pushFrame (packStatus old) pc
  let s := s.switchSpIf (old.u && s.irq.ctrl.u)
  let s := { s with status := entryUpdate s.status }
  s.jumpVector (sourceVector n)

/-- A regular entry from user mode that leaves the frame on the user stack while an interrupt is active: its
return could not find the frame (43_interrupts R259). -/
def State.frameWouldBeLost (s : State) : Bool :=
  s.status.u && s.irq.ctrl.u && decide (s.irq.act ≠ 0)

/-- `enter(n, p, pc)` (43_interrupts R251 to R257). -/
def State.enterInterrupt (s : State) (n p : Nat) (pc : Word) : State :=
  if s.isFast p then (s.markEntry n p).fastEntry n pc
  else if s.frameWouldBeLost then s.refuse .userEntryWhileActive
  else (s.markEntry n p).regularEntry n pc

/-- `IRQ_POLL` (43_interrupts R249). -/
def State.poll (s : State) (pc : Word) : State :=
  if s.gateOpen then
    match s.select with
    | none => s
    | some n =>
      let p := (s.source n).prio.toNat
      if p < s.currentPrio then s.enterInterrupt n p pc else s
  else s

/-- IRQ_POLL (43_interrupts R249). -/
def execIrqPoll (pc : Word) (s : State) : Host.Outcome State Fault Refusal := .next (s.clearOut.poll pc)

/-! ### Return -/

/-- The level returned from is no longer active, and with the last one the user-entry mark goes
(43_interrupts R261, R262). -/
def State.clearLevel (s : State) (p : Nat) : State :=
  let act := clearAct s.irq.act p
  { s with irq.act := act, irq.actU := s.irq.actU && decide (act ≠ 0) }

/-- The fast return (43_interrupts R261). -/
def State.fastReturn (s : State) : State :=
  let s := { s with status := unpackStatus s.cfg s.exc.statusP0 }
  let s := s.jump (s.cpu.core.get regIlink)
  let s := s.switchSpIf s.status.u
  s.clearLevel 0

/-- `for k in n-1 down to 0: x[k] <- Pop()` (43_interrupts R262). -/
def State.popRegs (s : State) (n : Nat) : State :=
  (List.range n).reverse.foldl (fun s k => s.popReg (Fin.ofNat 32 k)) s

/-- `LP_END <- Pop(); LP_START <- Pop(); LP_COUNT <- Pop()` (43_interrupts R262). -/
def State.popLoop (s : State) : State :=
  let s := { s.popped with cpu.lpEnd := s.popWord }
  let s := { s.popped with cpu.lpStart := s.popWord }
  { s.popped with cpu.lpCount := s.popWord }

/-- `JLI_BASE <- Pop(); LDI_BASE <- Pop(); EI_BASE <- Pop()` (43_interrupts R262). -/
def State.popBases (s : State) : State :=
  let s := { s.popped with cpu.jliBase := s.popWord }
  let s := { s.popped with cpu.ldiBase := s.popWord }
  { s.popped with cpu.eiBase := s.popWord }

/-- The pops of the regular frame before the return address and the status word (43_interrupts R262). -/
def State.popFrame (s : State) : State :=
  let s := s.popRegs s.savedRegs
  let s := if s.irq.ctrl.b then s.popReg regBlink else s
  let s := if s.savesLoop then s.popLoop else s
  if s.savesBases then s.popBases else s

/-- The frame of the interrupt returned from lies on the user stack (43_interrupts R262). -/
def State.userFrame (s : State) : Bool :=
  s.irq.ctrl.u && s.irq.actU && decide (popcount s.irq.act = 1)

/-- The regular return (43_interrupts R262). -/
def State.regularReturn (s : State) (p : Nat) : State :=
  let userFrame := s.userFrame
  let s := s.switchSpIf userFrame
  let s := s.popFrame
  let ret := s.popWord
  let s := s.popped
  let st := s.popWord
  let s := s.popped
  let s := { s with status := unpackStatus s.cfg st }
  let s := s.switchSpIf (s.status.u && !userFrame)
  let s := s.clearLevel p
  s.jump ret

/-- `interrupt_return()` from the most urgent active level (43_interrupts R260). -/
def State.interruptReturn (s : State) (p : Nat) : State :=
  if s.isFast p then s.fastReturn else s.regularReturn p

/-! ### The input lines -/

/-- `LINE` (43_interrupts R231). -/
def State.drive (s : State) (src : Byte) (level : Bool) : State :=
  let n := src.toNat
  if src = 0xFF then { s with irq.irqReq := level }
  else if n < s.cfg.numHwIrq then
    let rising := (s.source n).trig && !s.lineOf n && level
    let s := if rising then s.setSource n { s.source n with plat := true } else s
    s.setLine n level
  else s.refuse .lineNotHardware

/-- LINE (43_interrupts R231): an environment step between two requests. -/
def execLine (src : Byte) (level : Bool) (s : State) : Host.Outcome State Fault Refusal :=
  .next (s.clearOut.drive src level)

end Sys2Proof.Machine
end

