-- ==== Sys2Proof/Machine/Mpu.lean ====
section
/-! DEFINITION. The MPU: the region matcher (42_mpu R190 to R193), the access check (R194 to R196) and whether its
answer holds for the whole page (R197, R198). -/

namespace Sys2Proof.Machine

/-- Region `i`; a slot past the sixteenth is an invalid region, which no rule reads. -/
def State.region (s : State) (i : Nat) : Region := s.mpu.regions.getD i Region.reset

/-- Region `i` is valid and covers the address (42_mpu R191). -/
def State.regionAnswers (s : State) (addr : Word) (i : Nat) : Bool :=
  (s.region i).valid && covers (s.region i) addr

/-- `find_region(addr)`: the lowest-numbered region that answers, or `MPU_REGIONS` for the default region
(42_mpu R191). -/
def State.findRegion (s : State) (addr : Word) : Nat :=
  ((List.range s.cfg.mpuRegions).find? (s.regionAnswers addr)).getD s.cfg.mpuRegions

/-- `permission_for(r)` (42_mpu R192). -/
def State.permissionFor (s : State) (r : Nat) : BitVec 6 :=
  if r = s.cfg.mpuRegions then s.mpu.dperm else (s.region r).perm

/-- The page of `addr` lies in the page-aligned footprint of region `j` (42_mpu R197). -/
def State.footprintMeets (s : State) (addr : Word) (j : Nat) : Bool :=
  let page := vpnOf s.cfg addr
  decide (vpnOf s.cfg (regionLo (s.region j)) ≤ page) && decide (page ≤ vpnOf s.cfg (regionHi (s.region j)))

/-- `overlap_free(addr, r)`: no valid region of higher priority has a footprint that meets the page
(42_mpu R197). -/
def State.overlapFree (s : State) (addr : Word) (r : Nat) : Bool :=
  (List.range (min r s.cfg.mpuRegions)).all fun j => !((s.region j).valid && s.footprintMeets addr j)

/-- `page_granular(addr, r)` (42_mpu R198). -/
def State.pageGranular (s : State) (addr : Word) (r : Nat) : Bool :=
  s.overlapFree addr r &&
    (decide (r = s.cfg.mpuRegions) || decide (s.cfg.pageBits ≤ sizeBits (s.region r).size))

/-- `mpu_check` (42_mpu R194): a violation records `MPU_ECR` and raises ProtV. -/
def State.mpuCheck (s : State) (kind : AccessKind) (vaddr pc : Word) : State :=
  let r := s.findRegion vaddr
  let eff := effMpu s.status.u (s.permissionFor r)
  if allows eff kind then s.grant vaddr eff true (s.pageGranular vaddr r)
  else
    { s with mpu.ecr := mpuEcrWord kind r }.raiseAt vecProtV (kindCode kind) s.cfg.protvMpu vaddr pc

/-- A region register's region changed, and the whole downstream cache flushed (42_mpu R199). -/
def State.writeRegion (s : State) (i : Nat) (r : Region) : State :=
  { s with mpu.regions := s.mpu.regions.setIfInBounds i r }.flush .all

/-- A write of `MPU_EN` (30_encoding R119, 42_mpu R199). -/
def State.writeMpuEn (s : State) (w : Word) : State :=
  { s with mpu.en := w.getLsbD 30, mpu.dperm := w.extractLsb' 3 6 }.flush .all

end Sys2Proof.Machine
end

