-- ==== Sys2Proof/Machine/Tlb.lean ====
section
/-! DEFINITION. The TLB: matching and lookup (41_tlb R140 to R144), translation through it (R145 to R149), the
command register (R150 to R163) and the external flush (R165). -/

namespace Sys2Proof.Machine

/-! ### Entries and victim pointers -/

/-- `tlb[st][way]` (10_state R34, R35). -/
def State.entry (s : State) (st : BitVec 8) (way : BitVec 2) : TlbEntry :=
  s.tlb.entries.get (entryIndex st way).toFin

/-- `tlb[st][way] <- e`. -/
def State.setEntry (s : State) (st : BitVec 8) (way : BitVec 2) (e : TlbEntry) : State :=
  { s with tlb.entries := s.tlb.entries.set (entryIndex st way).toNat e (entryIndex st way).isLt }

/-- `tlb[st][way].v <- 0`. -/
def State.invalidate (s : State) (st : BitVec 8) (way : BitVec 2) : State :=
  s.setEntry st way { s.entry st way with v := false }

/-- `rr[st]` (10_state R36). -/
def State.victim (s : State) (st : BitVec 8) : BitVec 2 := s.tlb.rr.get st.toFin

/-- `rr[st] <- (rr[st] + 1) mod 4` (41_tlb R161). -/
def State.advanceVictim (s : State) (st : BitVec 8) : State :=
  { s with tlb.rr := s.tlb.rr.set st.toNat (s.victim st + 1) st.isLt }

/-! ### Matching -/

/-- The match predicate of an entry against a page number and an ASID (41_tlb R141). -/
def entryMatches (cfg : Config) (sasid1 sasid0 : Word) (e : TlbEntry) (vpn : Word) (asid : Byte) : Bool :=
  e.v && e.vpn == vpn && (e.g || (e.s && sharedMatch cfg sasid1 sasid0 e.asid) || e.asid == asid)

/-- Way `way` of the page's set matches. -/
def State.wayMatches (s : State) (vpn : Word) (asid : Byte) (way : BitVec 2) : Bool :=
  entryMatches s.cfg s.tlb.sasid1 s.tlb.sasid0 (s.entry (tlbSet vpn) way) vpn asid

/-- The matching ways of the page's set, ascending (41_tlb R143, R155). -/
def State.matches (s : State) (vpn : Word) (asid : Byte) : List (BitVec 2) :=
  [0, 1, 2, 3].filter (s.wayMatches vpn asid)

/-! ### Translation -/

/-- A TLB miss: stage `PD0`, then raise (41_tlb R147). -/
def State.tlbMiss (s : State) (kind : AccessKind) (vaddr pc : Word) : State :=
  let s := { s with tlb.pd0 := stagedPd0 s.cfg vaddr s.tlb.pid.asid }
  let vector := if kind = .fetch then vecTlbMissI else vecTlbMissD
  s.raiseAt vector (kindCode kind) 0 vaddr pc

/-- A TLB hit on entry `e`: super page, permission, address (41_tlb R145, R148, R149). -/
def State.tlbHit (s : State) (e : TlbEntry) (kind : AccessKind) (vaddr pc : Word) : State :=
  let eff := effTlb s.status.u e.perm
  if e.sz then s.refuse .superPageUnmodelled
  else if allows eff kind then
    s.grant ((e.ppn <<< s.cfg.pageBits) ||| offsetOf s.cfg vaddr) eff e.c true
  else s.raiseAt vecProtV (kindCode kind) s.cfg.protvMmu vaddr pc

/-- `tlb_translate` (41_tlb R145). -/
def State.tlbTranslate (s : State) (kind : AccessKind) (vaddr pc : Word) : State :=
  let vpn := vpnOf s.cfg vaddr
  match s.matches vpn s.tlb.pid.asid with
  | [] => s.tlbMiss kind vaddr pc
  | [way] => s.tlbHit (s.entry (tlbSet vpn) way) kind vaddr pc
  | _ :: _ :: _ => s.raiseAt vecMachineCheck (kindCode kind) 0 vaddr pc

/-! ### Commands -/

/-- The ways that match the tag in `PD0` (41_tlb R155). -/
def State.search (s : State) : List (BitVec 2) :=
  s.matches (pd0Vpn s.cfg s.tlb.pd0) (pd0Asid s.tlb.pd0)

/-- The set of the page in `PD0`. -/
def State.pd0Set (s : State) : BitVec 8 := tlbSet (pd0Vpn s.cfg s.tlb.pd0)

/-- `TLBINDEX.E <- e; TLBINDEX.NV <- nv`. -/
def State.setEvents (s : State) (e nv : Bool) : State :=
  { s with tlb.index.e := e, tlb.index.nv := nv }

/-- `TLBINDEX.INDEX <- st * 4 + way`. -/
def State.setIndex (s : State) (st : BitVec 8) (way : BitVec 2) : State :=
  { s with tlb.index.index := entryIndex st way }

/-- READ (41_tlb R152). -/
def State.tlbRead (s : State) : State :=
  let e := s.entry (indexSet s.tlb.index.index) (indexWay s.tlb.index.index)
  let s := { s with tlb.pd0 := pd0Of s.cfg e, tlb.pd1 := pd1Of s.cfg e }
  s.setEvents false false

/-- WRITENI (41_tlb R154): the slot `TLBINDEX` names takes the descriptor registers, with no search. -/
def State.tlbWriteNi (s : State) : State :=
  s.setEntry (indexSet s.tlb.index.index) (indexWay s.tlb.index.index)
    (toEntry s.cfg s.tlb.pd0 s.tlb.pd1)

/-- WRITE (41_tlb R153): the same, and the downstream cache is flushed. -/
def State.tlbWrite (s : State) : State := s.tlbWriteNi.flush .all

/-- Every way of a list invalidated (41_tlb R156, R160). -/
def State.invalidateWays (s : State) (st : BitVec 8) (ways : List (BitVec 2)) : State :=
  ways.foldl (fun s way => s.invalidate st way) s

/-- DELETE (41_tlb R156, R157). -/
def State.tlbDelete (s : State) : State :=
  let st := s.pd0Set
  match s.search with
  | [] => s.setEvents true false
  | [way] => (((s.setEvents false false).invalidateWays st [way]).setIndex st way).flush .all
  | ways => ((s.setEvents false false).invalidateWays st ways).flush .all

/-- The end of INSERT: the way is written, `TLBINDEX` names it, the victim pointer moves on (41_tlb R161). -/
def State.insertAt (s : State) (st : BitVec 8) (way : BitVec 2) : State :=
  let s := s.setEntry st way (toEntry s.cfg s.tlb.pd0 s.tlb.pd1)
  (s.setIndex st way).advanceVictim st

/-- INSERT (41_tlb R158 to R161): the page flush first, then the search; an invalid mapping is flagged and not
written; a match is overwritten in place and any further match invalidated; otherwise the victim is replaced. -/
def State.tlbInsert (s : State) : State :=
  let st := s.pd0Set
  let found := s.search
  let s := (s.flush (.page (pd0Vpn s.cfg s.tlb.pd0) (pd0Asid s.tlb.pd0))).setEvents false false
  if pd0V s.tlb.pd0 then
    match found with
    | [] => s.insertAt st (s.victim st)
    | way :: others => (s.invalidateWays st others).insertAt st way
  else s.setEvents false true

/-- The command a code names (41_tlb R150). -/
def State.tlbCommand (s : State) : TlbCmd → State
  | .write => s.tlbWrite
  | .read => s.tlbRead
  | .writeNi => s.tlbWriteNi
  | .insert => s.tlbInsert
  | .delete => s.tlbDelete

/-- `AUX_WRITE TLBCOMMAND` of a command's code, with the privilege check of every auxiliary write
(30_encoding R98, R129). -/
def State.issueCommand (s : State) (c : TlbCmd) (pc : Word) : State :=
  s.clearOut.kernelOnly pc fun s => s.tlbCommand c

/-- TLBCMD.WRITE (41_tlb R153). -/
def execTlbcmdWrite (pc : Word) (s : State) : Host.Outcome State Fault Refusal := .next (s.issueCommand .write pc)

/-- TLBCMD.READ (41_tlb R152). -/
def execTlbcmdRead (pc : Word) (s : State) : Host.Outcome State Fault Refusal := .next (s.issueCommand .read pc)

/-- TLBCMD.WRITENI (41_tlb R154). -/
def execTlbcmdWriteNi (pc : Word) (s : State) : Host.Outcome State Fault Refusal :=
  .next (s.issueCommand .writeNi pc)

/-- TLBCMD.INSERT (41_tlb R158 to R161). -/
def execTlbcmdInsert (pc : Word) (s : State) : Host.Outcome State Fault Refusal :=
  .next (s.issueCommand .insert pc)

/-- TLBCMD.DELETE (41_tlb R156, R157). -/
def execTlbcmdDelete (pc : Word) (s : State) : Host.Outcome State Fault Refusal :=
  .next (s.issueCommand .delete pc)

/-! ### The external flush -/

/-- Every entry invalid (41_tlb R165, 70 R320). -/
def invalidateAll (entries : Vector TlbEntry 1024) : Vector TlbEntry 1024 :=
  mapEach (fun e => { e with v := false }) entries

/-- TLB_FLUSH_EXT (41_tlb R165): it comes from the CPU, with no privilege check. -/
def execTlbFlushExt (s : State) : Host.Outcome State Fault Refusal :=
  let s := s.clearOut
  .next ({ s with tlb.entries := invalidateAll s.tlb.entries }.flush .all)

end Sys2Proof.Machine
end

