-- ==== Sys2Proof/Machine/AuxRegs.lean ====
section
/-! DEFINITION. Auxiliary-register access (30_encoding R97, R98, 10_state R51, R52): what each register reads as and
what a write of it does. -/

namespace Sys2Proof.Machine

/-! ### The per-vector registers -/

/-- `IRQ_SELECT` names an interrupt source (43_interrupts R232). -/
def State.selectValid (s : State) : Bool :=
  decide (16 ≤ s.irq.select.toNat) && decide (s.irq.select.toNat < 16 + s.cfg.numIrq)

/-- The source the per-vector registers address (30_encoding R121). -/
def State.selected (s : State) : Nat := s.irq.select.toNat - 16

/-- The registers that address the source `IRQ_SELECT` names (43_interrupts R232). -/
def isPerVector : AuxReg → Bool
  | .irqPriority => true
  | .irqEnable => true
  | .irqTrigger => true
  | .irqPending => true
  | .irqPulseCancel => true
  | _ => false

/-- The region index of a region register. -/
def regionIndex? : AuxReg → Option Nat
  | .rdb i => some i
  | .rdp i => some i
  | _ => none

/-- The access is malformed: a region register past the last region (42_mpu R200), or a per-vector register while
`IRQ_SELECT` names no source (43_interrupts R232) [log 12]. -/
def State.malformedAccess (s : State) (r : AuxReg) : Bool :=
  (match regionIndex? r with
    | some i => decide (s.cfg.mpuRegions ≤ i)
    | none => false) || (isPerVector r && !s.selectValid)

/-! ### Reading -/

/-- `ICAUSE` (43_interrupts R239). -/
def State.currentCause (s : State) : Byte :=
  match lsb? s.irq.act with
  | some p => s.irq.icause.getD p 0
  | none => 0

/-- What a register reads as (30_encoding R97 and the layouts R105 to R126); a write-only register reads 0. -/
def State.auxValue (s : State) : AuxReg → Word
  | .pd0 => s.tlb.pd0
  | .pd1 => s.tlb.pd1
  | .tlbindex => packIndex s.tlb.index
  | .tlbcommand => 0
  | .pid => packPid s.tlb.pid
  | .sasid0 => s.tlb.sasid0
  | .sasid1 => s.tlb.sasid1
  | .mpuEn => packMpuEn s.mpu.en s.mpu.dperm
  | .mpuEcr => s.mpu.ecr
  | .rdb i => packRdb (s.region i)
  | .rdp i => packRdp (s.region i)
  | .ecr => s.exc.ecr
  | .efa => s.exc.efa
  | .eret => s.exc.eret
  | .erstatus => s.exc.erstatus
  | .erbta => s.exc.erbta
  | .ivb => s.exc.ivb
  | .userSp => s.cpu.userSp
  | .statusP0 => s.exc.statusP0
  | .irqSelect => s.irq.select.setWidth 32
  | .irqPriority => (s.source s.selected).prio.setWidth 32
  | .irqEnable => bitAt (s.source s.selected).en 0
  | .irqTrigger => bitAt (s.source s.selected).trig 0
  | .irqPending => bitAt (s.pending s.selected) 0
  | .irqPulseCancel => 0
  | .irqHint => s.irq.hint.setWidth 32
  | .icause => s.currentCause.setWidth 32
  | .irqAct => packIrqAct s.cfg s.irq.act s.irq.actU
  | .irqCtrl => packIrqCtrl s.irq.ctrl
  | .status => packStatus s.status

/-- `AUX_READ` in kernel mode (30_encoding R97). -/
def State.auxReadKernel (s : State) (id pc : Word) : State :=
  match s.cfg.auxReg? id with
  | none => s.refuse .unknownAuxId
  | some r => if s.malformedAccess r then s.instructionError pc else s.answer (s.auxValue r)

/-- AUX_READ (30_encoding R97). -/
def execAuxRead (id pc : Word) (s : State) : Host.Outcome State Fault Refusal :=
  .next (s.clearOut.kernelOnly pc fun s => s.auxReadKernel id pc)

/-! ### Writing -/

/-- A write of `IRQ_SELECT` (43_interrupts R232). -/
def State.writeSelect (s : State) (w pc : Word) : State :=
  let v : Byte := w.setWidth 8
  if 16 ≤ v.toNat ∧ v.toNat < 16 + s.cfg.numIrq then { s with irq.select := v }
  else s.instructionError pc

/-- The priority a write stores, clamped to the configured levels (43_interrupts R233). -/
def clampPrio (cfg : Config) (w : Word) : BitVec 4 :=
  BitVec.ofNat 4 (min (w.setWidth 4).toNat (cfg.numPrio - 1))

/-- A write of `IRQ_HINT` (43_interrupts R236). -/
def State.writeHint (s : State) (w : Word) : State :=
  let v : Byte := w.setWidth 8
  if 16 + s.cfg.numHwIrq ≤ v.toNat ∧ v.toNat < 16 + s.cfg.numIrq then { s with irq.hint := v }
  else { s with irq.hint := 0 }

/-- A write of `IRQ_CTRL` (43_interrupts R240, R241). -/
def State.writeIrqCtrl (s : State) (w pc : Word) : State :=
  if maxIrqPairs < (unpackIrqCtrl w).nr.toNat then s.instructionError pc
  else { s with irq.ctrl := unpackIrqCtrl w }

/-- A write of `TLBCOMMAND` (41_tlb R150, R164). -/
def State.writeTlbCommand (s : State) (w : Word) : State :=
  match tlbCmd? w with
  | some c => s.tlbCommand c
  | none => s.refuse .unknownTlbCommand

/-- What a write of a register does (30_encoding R98): the fields stored, reserved bits ignored, and the register's
side effect; nothing for a read-only register. -/
def State.auxStore (s : State) (w pc : Word) : AuxReg → State
  | .pd0 => { s with tlb.pd0 := w &&& pd0Mask s.cfg }
  | .pd1 => { s with tlb.pd1 := w &&& pd1Mask s.cfg }
  | .tlbindex => { s with tlb.index := unpackIndex w }
  | .tlbcommand => s.writeTlbCommand w
  | .pid => { s with tlb.pid := unpackPid w }.flush .all
  | .sasid0 => { s with tlb.sasid0 := w }.flush .all
  | .sasid1 => { s with tlb.sasid1 := w }.flush .all
  | .mpuEn => s.writeMpuEn w
  | .mpuEcr => s
  | .rdb i => s.writeRegion i (unpackRdb w (s.region i))
  | .rdp i => s.writeRegion i (unpackRdp w (s.region i))
  | .ecr => s
  | .efa => { s with exc.efa := w }
  | .eret => { s with exc.eret := w }
  | .erstatus => { s with exc.erstatus := w }
  | .erbta => { s with exc.erbta := w }
  | .ivb => { s with exc.ivb := w }
  | .userSp => { s with cpu.userSp := w }
  | .statusP0 => { s with exc.statusP0 := w }
  | .irqSelect => s.writeSelect w pc
  | .irqPriority => s.setSource s.selected { s.source s.selected with prio := clampPrio s.cfg w }
  | .irqEnable => s.setSource s.selected { s.source s.selected with en := w.getLsbD 0 }
  | .irqTrigger => s.setSource s.selected { s.source s.selected with trig := w.getLsbD 0 }
  | .irqPending => s
  | .irqPulseCancel =>
    if w.getLsbD 0 then s.setSource s.selected { s.source s.selected with plat := false } else s
  | .irqHint => s.writeHint w
  | .icause => s
  | .irqAct => { s with irq.act := w.setWidth 16 &&& actMask s.cfg, irq.actU := w.getLsbD 31 }
  | .irqCtrl => s.writeIrqCtrl w pc
  | .status => s

/-- `AUX_WRITE` in kernel mode (30_encoding R98). -/
def State.auxWriteKernel (s : State) (id w pc : Word) : State :=
  match s.cfg.auxReg? id with
  | none => s.refuse .unknownAuxId
  | some r => if s.malformedAccess r then s.instructionError pc else s.auxStore w pc r

/-- AUX_WRITE (30_encoding R98). -/
def execAuxWrite (id wdata pc : Word) (s : State) : Host.Outcome State Fault Refusal :=
  .next (s.clearOut.kernelOnly pc fun s => s.auxWriteKernel id wdata pc)

end Sys2Proof.Machine
end

