-- ==== Sys2Proof/Machine/Exception.lean ====
section
/-! DEFINITION. The CPU's side of the dispatcher: `RAISE` (60_exceptions R293), `RETURN` (R296), and the status word
as guest code sees it (R300, R301). -/

namespace Sys2Proof.Machine

/-- RAISE (60_exceptions R293): any vector, with no privilege check. -/
def execRaise (vector cause param : Byte) (faddr pc retPc : Word) (s : State) :
    Host.Outcome State Fault Refusal :=
  .next (s.clearOut.raise vector cause param faddr pc retPc)

/-- `RETURN` (60_exceptions R296): an active exception first, else the most urgent active interrupt. -/
def State.return (s : State) : State :=
  if s.status.ae then s.exceptionReturn
  else match lsb? s.irq.act with
    | some p => s.interruptReturn p
    | none => s.refuse .returnNothingActive

/-- RETURN (60_exceptions R296). -/
def execReturn (s : State) : Host.Outcome State Fault Refusal := .next s.clearOut.return

/-- STATUS_READ (60_exceptions R300). -/
def execStatusRead (s : State) : Host.Outcome State Fault Refusal :=
  .next (s.clearOut.answer (packStatus s.status))

/-- STATUS_WRITE (60_exceptions R301): every field at once, in any mode. -/
def execStatusWrite (wdata : Word) (s : State) : Host.Outcome State Fault Refusal :=
  .next { s.clearOut with status := unpackStatus s.cfg wdata }

end Sys2Proof.Machine
end

