-- ==== Sys2Proof/Machine/Reset.lean ====
section
/-! DEFINITION. The `RESET` request (70 R320 to R323). What the spec names takes the value it gives; every other
register takes a draw, a free value [log 6]. -/

namespace Sys2Proof.Machine

/-- The draw a place takes in the reset that is under way. -/
def State.drawn (s : State) (site : DrawSite) : Word := Config.draw s.resets site

/-- The CPU registers after reset: draws (70 R321). -/
def State.resetCpu (s : State) : CpuRegs :=
  { core := tabulate 32 fun i => s.drawn (.core i)
    bank0 := tabulate 32 fun i => s.drawn (.bank0 i)
    bank1 := tabulate 32 fun i => s.drawn (.bank1 i)
    userSp := s.drawn .userSp
    bta := s.drawn .bta
    lpCount := s.drawn .lpCount
    lpStart := s.drawn .lpStart
    lpEnd := s.drawn .lpEnd
    eiBase := s.drawn .eiBase
    ldiBase := s.drawn .ldiBase
    jliBase := s.drawn .jliBase }

/-- The exception registers after reset: `IVB` is `IVB_RESET`, `ECR` and `EFA` are not written, the rest are draws
(70 R320, R321) [log 7]. -/
def State.resetExc (s : State) : ExcRegs :=
  { s.exc with
    ivb := s.cfg.ivbReset
    eret := s.drawn .eret
    erstatus := s.drawn .erstatus
    erbta := s.drawn .erbta
    statusP0 := s.drawn .statusP0 }

/-- The TLB after reset: every entry invalid with drawn fields, every victim pointer 0, the MMU off (70 R320). -/
def State.resetTlb (s : State) : Tlb :=
  { entries := tabulate 1024 fun i =>
      { toEntry s.cfg (s.drawn (.tlbTag i)) (s.drawn (.tlbData i)) with v := false }
    rr := Vector.replicate 256 0
    pd0 := s.drawn .pd0 &&& pd0Mask s.cfg
    pd1 := s.drawn .pd1 &&& pd1Mask s.cfg
    index := unpackIndex (s.drawn .tlbindex)
    pid := { unpackPid (s.drawn .asid) with t := false }
    sasid0 := s.drawn .sasid0
    sasid1 := s.drawn .sasid1 }

/-- Region `i` after reset: invalid, with drawn fields (70 R320). A slot that is no region stays. -/
def State.resetRegion (s : State) (i : Nat) : Region :=
  let old := s.mpu.regions.getD i Region.reset
  if i < s.cfg.mpuRegions then
    { unpackRdp (s.drawn (.regionDesc i)) (unpackRdb (s.drawn (.regionBase i)) old) with valid := false }
  else old

/-- The MPU after reset (70 R320). `MPU_ECR` holds a vector, an access kind and a region index below bit 24
(30_encoding R118), and so does its draw. -/
def State.resetMpu (s : State) : Mpu :=
  { regions := tabulate 16 s.resetRegion
    en := false
    dperm := (s.drawn .dperm).extractLsb' 3 6
    ecr := s.drawn .mpuEcr &&& lowMask 24 }

/-- The interrupt controller after reset (70 R320): the input lines keep the value the environment drives
(R323), and a slot that is no source stays. -/
def State.resetIrq (s : State) : Irq :=
  { s.irq with
    sources := tabulate 240 fun i =>
      if i < s.cfg.numIrq then IrqSource.reset s.cfg i else s.irq.sources.getD i IrqSource.absent
    hint := 0
    select := (s.drawn .irqSelect).setWidth 8
    act := 0
    actU := false
    icause := tabulate 16 fun p => (s.drawn (.icause p)).setWidth 8
    ctrl := unpackIrqCtrl 0 }

/-- `RESET` (70 R320): the state is set, the downstream cache flushed, and control goes to entry 0 of the vector
table at `IVB_RESET` (R322). -/
def State.doReset (s : State) : State :=
  let s :=
    { s with
      cpu := s.resetCpu
      status := unpackStatus s.cfg 0
      exc := s.resetExc
      tlb := s.resetTlb
      mpu := s.resetMpu
      irq := s.resetIrq
      resets := s.resets + 1 }
  (s.flush .all).jumpVector 0

/-- RESET (70 R320). -/
def execReset (s : State) : Host.Outcome State Fault Refusal := .next s.clearOut.doReset

end Sys2Proof.Machine
end

