-- ==== Sys2Proof/Machine/Translate.lean ====
section
/-! DEFINITION. The translation-mode router (40_router R130 to R135) and the three `TRANSLATE` requests (R133). -/

namespace Sys2Proof.Machine

/-- The router's output (40_router R130). -/
inductive Route where
  | direct
  | useMpu
  | useMmu
  | fault
  deriving DecidableEq, Repr

/-- The router's fixed table, row by row: MMU on, MPU on, address in range, user mode (40_router R132). -/
def route (mmu mpu inRange user : Bool) : Route :=
  match mmu, mpu, inRange, user with
  | false, false, false, false => .direct
  | false, false, false, true => .direct
  | false, false, true, false => .direct
  | false, false, true, true => .direct
  | false, true, false, false => .useMpu
  | false, true, false, true => .useMpu
  | false, true, true, false => .useMpu
  | false, true, true, true => .useMpu
  | true, false, false, false => .direct
  | true, false, false, true => .fault
  | true, false, true, false => .useMmu
  | true, false, true, true => .useMmu
  | true, true, false, false => .useMpu
  | true, true, false, true => .useMpu
  | true, true, true, false => .useMmu
  | true, true, true, true => .useMmu

/-- The address is below the MMU's ceiling (40_router R131). -/
def State.inRange (s : State) (vaddr : Word) : Bool := decide (vaddr < s.cfg.mmuCeiling)

/-- The router applied to the registers as the request finds them (40_router R134). -/
def State.routeOf (s : State) (vaddr : Word) : Route :=
  route s.tlb.pid.t s.mpu.en (s.inRange vaddr) s.status.u

/-- `TRANSLATE` (40_router R133). -/
def State.translate (s : State) (kind : AccessKind) (vaddr pc : Word) : State :=
  let s := s.clearOut
  match s.routeOf vaddr with
  | .direct => s.grant vaddr 0b111#3 true true
  | .useMmu => s.tlbTranslate kind vaddr pc
  | .useMpu => s.mpuCheck kind vaddr pc
  | .fault => s.raiseAt vecPrivilegeV (kindCode kind) 0 vaddr pc

/-- TRANSLATE.FETCH (40_router R133). -/
def execTranslateFetch (vaddr pc : Word) (s : State) : Host.Outcome State Fault Refusal :=
  .next (s.translate .fetch vaddr pc)

/-- TRANSLATE.READ (40_router R133). -/
def execTranslateRead (vaddr pc : Word) (s : State) : Host.Outcome State Fault Refusal :=
  .next (s.translate .read vaddr pc)

/-- TRANSLATE.WRITE (40_router R133). -/
def execTranslateWrite (vaddr pc : Word) (s : State) : Host.Outcome State Fault Refusal :=
  .next (s.translate .write vaddr pc)

end Sys2Proof.Machine
end

