-- ==== Sys2Proof/Machine/Dispatch.lean ====
section
/-! DEFINITION. What each request does: one arm for each row of the opcode table. -/

namespace Sys2Proof.Machine

/-- The meaning of a request. -/
def exec (i : Instr) (s : State) : Host.Outcome State Fault Refusal :=
  match i with
  | .translateFetch vaddr pc => Sys2Proof.Machine.execTranslateFetch vaddr pc s
  | .translateRead vaddr pc => Sys2Proof.Machine.execTranslateRead vaddr pc s
  | .translateWrite vaddr pc => Sys2Proof.Machine.execTranslateWrite vaddr pc s
  | .auxRead id pc => Sys2Proof.Machine.execAuxRead id pc s
  | .auxWrite id wdata pc => Sys2Proof.Machine.execAuxWrite id wdata pc s
  | .irqPoll pc => Sys2Proof.Machine.execIrqPoll pc s
  | .ret => Sys2Proof.Machine.execReturn s
  | .raise vector cause param faddr pc retPc => Sys2Proof.Machine.execRaise vector cause param faddr pc retPc s
  | .reset => Sys2Proof.Machine.execReset s
  | .tlbFlushExt => Sys2Proof.Machine.execTlbFlushExt s
  | .statusRead => Sys2Proof.Machine.execStatusRead s
  | .statusWrite wdata => Sys2Proof.Machine.execStatusWrite wdata s
  | .line src level => Sys2Proof.Machine.execLine src level s
  | .tlbcmdWrite pc => Sys2Proof.Machine.execTlbcmdWrite pc s
  | .tlbcmdRead pc => Sys2Proof.Machine.execTlbcmdRead pc s
  | .tlbcmdWriteNi pc => Sys2Proof.Machine.execTlbcmdWriteNi pc s
  | .tlbcmdInsert pc => Sys2Proof.Machine.execTlbcmdInsert pc s
  | .tlbcmdDelete pc => Sys2Proof.Machine.execTlbcmdDelete pc s

end Sys2Proof.Machine
end

