-- ==== Sys2Proof/Machine/Fetch.lean ====
section
/-! DEFINITION. How a request reaches the block: the next one waiting in the inbox, and where a request is put so
that it is the next (30_encoding R90) [log 2]. -/

namespace Sys2Proof.Machine

/-- The state with the first waiting request taken. -/
def State.take (s : State) : State := { s with inbox := s.inbox.tail }

/-- The state with a request in front of those waiting. -/
def State.offer (s : State) (r : Request) : State := { s with inbox := r :: s.inbox }

/-- A request whose header names nothing: refused with the reason the decoder gives (30_encoding R91, R96). -/
def State.reject (s : State) (reason : RefuseReason) : State := s.refuse reason

end Sys2Proof.Machine
end

