-- ==== Sys2Proof/Machine/Step.lean ====
section
/-! DEFINITION. One step of the block: the next waiting request is taken, decoded and performed (30_encoding R90,
R93). The block holds no program counter (10_state R25): it performs what it is given, in order (20_memory R80). -/

namespace Sys2Proof.Machine

/-- One step. With nothing waiting the block stays as it is [log 2]; a request whose header names nothing is
refused (30_encoding R91); any other is performed. -/
def step (s : State) : Host.Outcome State Fault Refusal :=
  match s.inbox with
  | [] => .next s
  | r :: _ =>
    match decode s.cfg r with
    | .instr i => exec i s.take
    | .rejected reason => .next (s.take.reject reason)

/-- The state whose next step performs the request of an opcode-table word: it stands in front of those waiting
[log 2]. -/
def State.withFetchWord (s : State) (nbits w : Nat) : State := s.offer (Request.ofTableWord nbits w)

end Sys2Proof.Machine
end

