-- ==== Sys2Proof/WellFormed.lean ====
section
/-! DEFINITION. Which terms of `Instr` are the request their words name: each request has one term. The fields'
types already bound every operand; what is left is that a TLB command is written as that command [log 3]. -/

namespace Sys2Proof

/-- The implementation gives `TLBCOMMAND` a number of its own (30_encoding R99), so that a command can be issued. -/
def Config.canIssueCommands (cfg : Config) : Bool :=
  decide (cfg.auxReg? (cfg.auxId .tlbcommand) = some .tlbcommand)

/-- `AUX_WRITE id, wdata` is written as `auxWrite` unless it issues a TLB command (30_encoding R129, 41_tlb R150). -/
def Config.isPlainWrite (cfg : Config) (id wdata : Word) : Bool :=
  !(decide (cfg.auxReg? id = some .tlbcommand) && (tlbCmd? wdata).isSome)

/-- The well-formed requests of an implementation. -/
def WellFormed (cfg : Config) : Instr → Bool
  | .translateFetch _ _ => true
  | .translateRead _ _ => true
  | .translateWrite _ _ => true
  | .auxRead _ _ => true
  | .auxWrite id wdata _ => cfg.isPlainWrite id wdata
  | .irqPoll _ => true
  | .ret => true
  | .raise _ _ _ _ _ _ => true
  | .reset => true
  | .tlbFlushExt => true
  | .statusRead => true
  | .statusWrite _ => true
  | .line _ _ => true
  | .tlbcmdWrite _ => cfg.canIssueCommands
  | .tlbcmdRead _ => cfg.canIssueCommands
  | .tlbcmdWriteNi _ => cfg.canIssueCommands
  | .tlbcmdInsert _ => cfg.canIssueCommands
  | .tlbcmdDelete _ => cfg.canIssueCommands

end Sys2Proof
end

