-- ==== Sys2Proof/Safety.lean ====
section
/-! DEFINITION. The terms claims are stated in: which parameters an implementation may have (00_scope R1 to R4, R99),
which states are sound (the widths, bounds and reserved bits of 10_state and 30_encoding), and what it takes to trust
a run (10_state R50). -/

namespace Sys2Proof

/-- The registers every implementation numbers (30_encoding R99): those of 10_state R52, with `RDB[i]` and `RDP[i]`
for `i` in 0..15. -/
def Config.numberedRegs : List AuxReg :=
  [.pd0, .pd1, .tlbindex, .tlbcommand, .pid, .sasid0, .sasid1, .mpuEn, .mpuEcr] ++
  [.ecr, .efa, .eret, .erstatus, .erbta, .ivb, .userSp, .statusP0, .status] ++
  [.irqSelect, .irqPriority, .irqEnable, .irqTrigger, .irqPending, .irqPulseCancel, .irqHint, .icause,
   .irqAct, .irqCtrl] ++
  (List.range 16).map .rdb ++ (List.range 16).map .rdp

/-- `AUX_ID` is an injective map that numbers every register (30_encoding R99). -/
def Config.auxIdsWf (cfg : Config) : Bool :=
  decide (cfg.auxIds.map (·.1)).Nodup && decide (cfg.auxIds.map (·.2)).Nodup &&
    Config.numberedRegs.all fun r => decide (r ∈ cfg.auxIds.map (·.2))

/-- The parameters an implementation may have (00_scope R2, R4): the ranges of the table, `SP`, `ILINK` and `BLINK`
never banked (10_state R21), the auxiliary numbers distinct (30_encoding R99). -/
def Config.wf (cfg : Config) : Bool :=
  decide (13 ≤ cfg.pageBits) && decide (cfg.pageBits ≤ 24) &&
  decide (cfg.mpuRegions ∈ [0, 1, 2, 4, 8, 16]) &&
  decide (1 ≤ cfg.numPrio) && decide (cfg.numPrio ≤ 16) &&
  decide (cfg.numHwIrq ≤ cfg.numIrq) && decide (cfg.numIrq ≤ 240) &&
  decide (cfg.numBanks ∈ [1, 2]) &&
  !cfg.bankedSet.getLsbD 28 && !cfg.bankedSet.getLsbD 29 && !cfg.bankedSet.getLsbD 31 &&
  cfg.auxIdsWf

namespace Machine

/-- A page number fits its width, `32 - PAGE_BITS` bits (10_state R34). -/
def pageFits (cfg : Config) (n : Word) : Prop := n.toNat < 2 ^ (32 - cfg.pageBits)

/-- A sound state: what the block's registers can hold. Every step keeps it. -/
structure State.Inv (s : State) : Prop where
  /-- the parameters are an implementation's (00_scope R4) -/
  cfg : s.cfg.wf = true
  /-- memory is in its canonical form -/
  mem : s.mem.wf = true
  /-- the reserved bits of `PD0` read 0 (30_encoding R110) -/
  pd0 : s.tlb.pd0 &&& ~~~pd0Mask s.cfg = 0
  /-- the reserved bits of `PD1` read 0 (30_encoding R111) -/
  pd1 : s.tlb.pd1 &&& ~~~pd1Mask s.cfg = 0
  /-- the page numbers of every TLB entry fit their width (10_state R34) -/
  pages : ∀ st way, pageFits s.cfg (s.entry st way).vpn ∧ pageFits s.cfg (s.entry st way).ppn
  /-- every priority is below `NUM_PRIO` (10_state R41) -/
  prio : ∀ n < s.cfg.numIrq, (s.source n).prio.toNat < s.cfg.numPrio
  /-- no priority at or above `NUM_PRIO` is active (30_encoding R124) -/
  act : s.irq.act &&& ~~~actMask s.cfg = 0
  /-- the register-pair count is legal (43_interrupts R241) -/
  nr : s.irq.ctrl.nr.toNat ≤ maxIrqPairs
  /-- the hint latch holds no vector or a software source's (43_interrupts R236) -/
  hint : s.irq.hint = 0 ∨
    16 + s.cfg.numHwIrq ≤ s.irq.hint.toNat ∧ s.irq.hint.toNat < 16 + s.cfg.numIrq
  /-- with one bank `STATUS.RB` reads 0 (10_state R22) -/
  bank : s.cfg.numBanks ≠ 2 → s.status.rb = false
  /-- bits 31:24 of `ECR` are 0 (30_encoding R107) -/
  ecr : s.exc.ecr.toNat < 2 ^ 24
  /-- bits 31:24 of `MPU_ECR` are 0 (30_encoding R118) -/
  mpuEcr : s.mpu.ecr.toNat < 2 ^ 24

/-- No other agent of physical memory is about to write (20_memory R76). -/
def State.undisturbed (s : State) : Prop := s.otherAgents = []

/-- The run so far has a meaning in the spec: no request of it was refused (10_state R50, 30_encoding R96) [log 4].
A claim about the hardware is a claim about states that satisfy this. -/
def State.trusted (s : State) : Prop := s.refused = false

/-- A byte address lies in the word at `a`: it is one of the word's four byte addresses (20_memory R72). -/
def inWord (a : Word) (b : Nat) : Prop := ∃ k < 4, b = byteAddr a k

/-- What register `i` reads as in the bank that a value of `STATUS.RB` selects (10_state R23). -/
def State.regInBank (s : State) (rb : Bool) (i : Fin 32) : Word := { s with status.rb := rb }.readReg i

/-- The words of a regular frame in push order (43_interrupts R255): the table's rows, each when its condition
holds. -/
def State.frameWords (s : State) (pc : Word) : List Word :=
  [packStatus s.status, pc] ++
  (if s.cfg.codeDensity && s.irq.ctrl.lp then [s.cpu.eiBase, s.cpu.ldiBase, s.cpu.jliBase] else []) ++
  (if s.cfg.hasLoop && s.irq.ctrl.l then [s.cpu.lpCount, s.cpu.lpStart, s.cpu.lpEnd] else []) ++
  (if s.irq.ctrl.b then [s.readReg regBlink] else []) ++
  (List.range (2 * s.irq.ctrl.nr.toNat)).map fun k => s.readReg (Fin.ofNat 32 k)

/-- The number of words of a regular frame (43_interrupts R258). -/
def State.frameSize (s : State) : Nat :=
  2 + 3 * (s.cfg.codeDensity && s.irq.ctrl.lp).toNat + 3 * (s.cfg.hasLoop && s.irq.ctrl.l).toNat +
    s.irq.ctrl.b.toNat + 2 * s.irq.ctrl.nr.toNat

/-- The address of word `k` of a frame pushed from stack pointer `sp` (43_interrupts R256, R258). -/
def frameAddr (sp : Word) (k : Nat) : Word := sp - BitVec.ofNat 32 (4 * (k + 1))

/-- `t` holds the marks of an entry of source `n` at priority `p` into `s` (43_interrupts R251), and the rest of the
interrupt controller unchanged. -/
structure EntryMarked (s t : State) (n p : Nat) : Prop where
  act : t.irq.act = s.irq.act ||| (1#16 <<< p)
  actU : t.irq.actU = (s.irq.actU || (decide (s.irq.act = 0) && s.status.u))
  cause : ∀ q, t.irq.icause.getD q 0 = if q = p ∧ p < 16 then BitVec.ofNat 8 (16 + n) else s.irq.icause.getD q 0
  sources : ∀ m, t.source m =
    if m = n ∧ n < s.cfg.numHwIrq ∧ (s.source n).trig then { s.source m with plat := false } else s.source m
  hint : t.irq.hint = if n < s.cfg.numHwIrq then s.irq.hint else 0
  lines : t.irq.lines = s.irq.lines
  irqReq : t.irq.irqReq = s.irq.irqReq
  select : t.irq.select = s.irq.select
  ctrl : t.irq.ctrl = s.irq.ctrl

end Machine

end Sys2Proof
end

