-- ==== Sys2Proof/Certificates/Slice0/Obligations.lean ====
section
/-! DEFINITION. The statements for the provers: what the spec's rules say the block does, about every state. Each
docstring names the rule it formalises. `t` is always the state after the request, and an equation
`t = { s with … }` is a frame: everything it does not name is unchanged. Many of these rules the spec itself marks as a
decision or a derivation of its own: the statements take them as the spec gives them [log 16]. -/

open Sys2Proof Sys2Proof.Machine

/-! ### Requests, encodings, steps -/

/-- 30_encoding R90, R93, 20_memory R80: a step performs the request in front of the inbox, which is consumed [log 2]. -/
def Obligations.StepPerformsTheDecodedRequest : Prop :=
  ∀ (s : State) (r : Request) (rest : List Request) (i : Instr),
    s.inbox = r :: rest → decode s.cfg r = .instr i → step s = exec i { s with inbox := rest }

/-- 30_encoding R96, for a header of R91 or R104 that names nothing: the request is consumed, the mark set, the reason
named, nothing else changed. That the run goes on is the model's reading of the mark [log 4]. -/
def Obligations.StepRefusesAnUndecodableHeader : Prop :=
  ∀ (s : State) (r : Request) (rest : List Request) (reason : RefuseReason),
    s.inbox = r :: rest → decode s.cfg r = .rejected reason →
    step s =
      .next { s with inbox := rest, refused := true, out := { Outputs.none with refusal := some reason } }

/-- The headers that name a request (30_encoding R91, R92, R104). -/
def requestHeaders : List Word :=
  [0x11, 0x21, 0x31, 0x2, 0x3, 0x4, 0x5, 0x6, 0x7, 0x8, 0x9, 0xA, 0xB]

/-- 30_encoding R91, R104, R127: which headers name a request, which is a reserved access kind, and that every other
header is a reserved request. That a header which R91 and R104 both refuse counts as the latter is the model's choice
[log 24]. -/
def Obligations.HeaderNamesARequestExactlyWhen : Prop :=
  ∀ (cfg : Config) (r : Request),
    ((∃ i, decode cfg r = .instr i) ↔ r.header ∈ requestHeaders) ∧
    (decode cfg r = .rejected .reservedAccessKind ↔ r.header = 0x1) ∧
    (decode cfg r = .rejected .reservedRequest ↔ r.header ≠ 0x1 ∧ r.header ∉ requestHeaders)

/-- Decode and encode agree on every well-formed request, every operand at every value (30_encoding R92, R113,
R128). -/
def Obligations.DecodeReturnsTheEncodedRequest : Prop :=
  ∀ (cfg : Config) (i : Instr), WellFormed cfg i = true → decode cfg (encode cfg i) = .instr i

/-- What decodes is well formed, in every implementation of 00_scope R4. -/
def Obligations.DecodedRequestsAreWellFormed : Prop :=
  ∀ (cfg : Config) (r : Request) (i : Instr), cfg.wf = true → decode cfg r = .instr i → WellFormed cfg i = true

/-- Words of 95_test_vectors L3 and of 30_encoding R92, R104, R113, written out, and what they are. -/
def Obligations.WordsOfTheSpecDecode : Prop :=
  ∀ cfg : Config, cfg.wf = true →
    decode cfg ⟨0x21, 0x4010, 0x104, 0, 0, 0, 0⟩ = .instr (.translateRead 0x4010 0x104) ∧
    decode cfg ⟨0x31, 0x4010, 0x108, 0, 0, 0, 0⟩ = .instr (.translateWrite 0x4010 0x108) ∧
    decode cfg ⟨0x11, 0x8000, 0x40, 0, 0, 0, 0⟩ = .instr (.translateFetch 0x8000 0x40) ∧
    decode cfg ⟨0x3, cfg.auxId .tlbcommand, 0x7, 0x1004, 0, 0, 0⟩ = .instr (.tlbcmdInsert 0x1004) ∧
    decode cfg ⟨0x3, cfg.auxId .pid, 0x80000007, 0x100, 0, 0, 0⟩ =
      .instr (.auxWrite (cfg.auxId .pid) 0x80000007 0x100) ∧
    decode cfg ⟨0x6, 9, 0, 0, 0, 0x200, 0x204⟩ = .instr (.raise 9 0 0 0 0x200 0x204) ∧
    decode cfg ⟨0xB, 0xFF, 1, 0, 0, 0, 0⟩ = .instr (.line 0xFF true) ∧
    decode cfg ⟨0xA, 0x80000000, 0, 0, 0, 0, 0⟩ = .instr (.statusWrite 0x80000000)

/-- 30_encoding R93: every request clears the outputs first, so that what it does, outputs included, does not depend on
the outputs before it. Every request completes in one step (00_scope R5, R6). -/
def Obligations.EveryRequestCompletesAndClearsTheOutputsFirst : Prop :=
  ∀ (i : Instr) (s : State), ∃ t, ∀ o : Outputs, exec i { s with out := o } = .next t

/-- 10_state R50, 30_encoding R96: a request that is refused changes nothing but the mark and the reason named; the
mark is set exactly by a refusal and never cleared. -/
def Obligations.RefusalSetsOnlyTheMarkAndNothingClearsIt : Prop :=
  ∀ (i : Instr) (s t : State), exec i s = .next t →
    t.refused = (s.refused || t.out.refusal.isSome) ∧
    (t.out.refusal ≠ none → t = { s with refused := true, out := { Outputs.none with refusal := t.out.refusal } })

/-- 10_state R42, 70 R323: only `LINE` changes an input line or `irq_req`, `RESET` among the requests that do not. The
parameters (00_scope R4) and the waiting requests are no request's to change. -/
def Obligations.RequestsKeepParametersAndInputs : Prop :=
  ∀ (i : Instr) (s t : State), exec i s = .next t →
    t.cfg = s.cfg ∧ t.inbox = s.inbox ∧
    ((∀ src level, i ≠ .line src level) → t.irq.lines = s.irq.lines ∧ t.irq.irqReq = s.irq.irqReq)

/-- 20_memory R71: of all requests only the pushes of an interrupt entry write physical memory, where no other agent
does. -/
def Obligations.OnlyInterruptEntryWritesMemory : Prop :=
  ∀ (i : Instr) (s t : State), s.undisturbed → (∀ pc, i ≠ .irqPoll pc) → exec i s = .next t →
    t.mem = s.mem ∧ t.undisturbed

/-- The reset state is sound: the values 70 R321 gives and those the model names (DESIGN CHOICE, log 5) obey every
width, bound and reserved bit. -/
def Obligations.ResetStateIsSound : Prop := State.reset.Inv

/-- Every step keeps every state sound: parameters, canonical memory, reserved bits, page widths, priorities, the active
bitmap, the pair count, the hint latch, the bank bit, the cause registers (10_state R22, R34, R41; 30_encoding R107,
R110, R111, R118, R124; 43_interrupts R236, R241). -/
def Obligations.EveryStepKeepsTheStateSound : Prop :=
  ∀ s t : State, s.Inv → step s = .next t → t.Inv

/-! ### Translation -/

/-- The `TRANSLATE` request of an access kind. -/
def translateInstr : AccessKind → Word → Word → Instr
  | .fetch => .translateFetch
  | .read => .translateRead
  | .write => .translateWrite

/-- The number of an access kind (30_encoding R104). -/
def kindNumber : AccessKind → Byte
  | .fetch => 1
  | .read => 2
  | .write => 3

/-- 40_router R130 to R132: the router's answer is the row `mmu*8 + mpu*4 + in_range*2 + user` of the fixed table. -/
def Obligations.RouterIsTheFixedTable : Prop :=
  ∀ (s : State) (vaddr : Word),
    [Route.direct, .direct, .direct, .direct, .useMpu, .useMpu, .useMpu, .useMpu,
      .direct, .fault, .useMmu, .useMmu, .useMpu, .useMpu, .useMmu, .useMmu][
        s.tlb.pid.t.toNat * 8 + s.mpu.en.toNat * 4 + (decide (vaddr < s.cfg.mmuCeiling)).toNat * 2 +
          s.status.u.toNat]? = some (s.routeOf vaddr)

/-- 40_router R133: the arms of the router that no engine answers. `Direct` maps the address to itself with all rights in
either mode; `Fault` raises PrivilegeViolation, for every access kind. -/
def Obligations.DirectAndFaultArmsOfTranslate : Prop :=
  ∀ (kind : AccessKind) (vaddr pc : Word) (s : State),
    (s.routeOf vaddr = .direct → exec (translateInstr kind vaddr pc) s =
      .next { s with out := { Outputs.none with
        paddr := some vaddr, permOut := some 0b111#3, cacheable := some true, pageGranular := some true } }) ∧
    (s.routeOf vaddr = .fault →
      exec (translateInstr kind vaddr pc) s = exec (.raise 7 (kindNumber kind) 0 vaddr pc pc) s)

/-- 41_tlb R141 to R143: the ways a lookup finds are exactly the ways of the page's set whose entry matches, in
ascending order; the default shared test is the bit of the 64-bit mask at the entry's ASID modulo 64. -/
def Obligations.LookupFindsTheMatchingWaysAscending : Prop :=
  ∀ (s : State) (vpn : Word) (asid : Byte),
    (s.matches vpn asid).Pairwise (· < ·) ∧
    (∀ way : BitVec 2, way ∈ s.matches vpn asid ↔
      (s.entry (vpn.setWidth 8) way).v = true ∧ (s.entry (vpn.setWidth 8) way).vpn = vpn ∧
      ((s.entry (vpn.setWidth 8) way).g = true ∨
        ((s.entry (vpn.setWidth 8) way).s = true ∧
          sharedMatch s.cfg s.tlb.sasid1 s.tlb.sasid0 (s.entry (vpn.setWidth 8) way).asid = true) ∨
        (s.entry (vpn.setWidth 8) way).asid = asid)) ∧
    (s.cfg.sharedTest = .sasidBit → ∀ k : Byte, sharedMatch s.cfg s.tlb.sasid1 s.tlb.sasid0 k =
      if k.toNat % 64 < 32 then s.tlb.sasid0.getLsbD (k.toNat % 64) else s.tlb.sasid1.getLsbD (k.toNat % 64 - 32))

/-- 41_tlb R146: two or more matching ways raise MachineCheck, with no other effect. -/
def Obligations.MultipleMatchRaisesMachineCheck : Prop :=
  ∀ (kind : AccessKind) (vaddr pc : Word) (s : State), s.routeOf vaddr = .useMmu →
    2 ≤ (s.matches (vaddr >>> s.cfg.pageBits) s.tlb.pid.asid).length →
    exec (translateInstr kind vaddr pc) s = exec (.raise 3 (kindNumber kind) 0 vaddr pc pc) s

/-- 41_tlb R147: a miss stages `PD0` with the page, the current ASID and `V`, then raises TLBMissI for a fetch and
TLBMissD for the other kinds. -/
def Obligations.MissStagesPd0AndRaises : Prop :=
  ∀ (kind : AccessKind) (vaddr pc : Word) (s : State), s.routeOf vaddr = .useMmu →
    s.matches (vaddr >>> s.cfg.pageBits) s.tlb.pid.asid = [] →
    exec (translateInstr kind vaddr pc) s =
      exec (.raise (if kind = AccessKind.fetch then 4 else 5) (kindNumber kind) 0 vaddr pc pc)
        { s with
          tlb.pd0 := ((vaddr >>> s.cfg.pageBits) <<< s.cfg.pageBits) ||| 0x200#32 ||| s.tlb.pid.asid.setWidth 32 }

/-- 41_tlb R148: a translation whose one match is a super-page entry is refused. -/
def Obligations.SuperPageTranslationIsRefused : Prop :=
  ∀ (kind : AccessKind) (vaddr pc : Word) (s : State) (way : BitVec 2), s.routeOf vaddr = .useMmu →
    s.matches (vaddr >>> s.cfg.pageBits) s.tlb.pid.asid = [way] →
    (s.entry ((vaddr >>> s.cfg.pageBits).setWidth 8) way).sz = true →
    exec (translateInstr kind vaddr pc) s =
      .next { s with refused := true, out := { Outputs.none with refusal := some .superPageUnmodelled } }

/-- The bit of a permission set that allows an access kind in a mode (30_encoding R111): `KR KW KX UR UW UX`, bit 5 to
bit 0. -/
def permBit (user : Bool) : AccessKind → Nat
  | .read => if user then 2 else 5
  | .write => if user then 1 else 4
  | .fetch => if user then 0 else 3

/-- 41_tlb R145, R149: a hit in one ordinary entry gives the physical address, the rights of the current privilege and
the cacheable flag if the permission bit of that privilege is set, and ProtV otherwise; the kernel may not use the
user's bits. -/
def Obligations.TlbHitChecksThePrivilegesOwnBit : Prop :=
  ∀ (kind : AccessKind) (vaddr pc : Word) (s : State) (way : BitVec 2) (e : TlbEntry),
    s.routeOf vaddr = .useMmu → s.matches (vaddr >>> s.cfg.pageBits) s.tlb.pid.asid = [way] →
    s.entry ((vaddr >>> s.cfg.pageBits).setWidth 8) way = e → e.sz = false →
    exec (translateInstr kind vaddr pc) s =
      if e.perm.getLsbD (permBit s.status.u kind) then
        .next { s with out := { Outputs.none with
          paddr := some ((e.ppn <<< s.cfg.pageBits) ||| (vaddr &&& (1#32 <<< s.cfg.pageBits) - 1)),
          permOut := some (e.perm.extractLsb' (if s.status.u then 0 else 3) 3),
          cacheable := some e.c, pageGranular := some true } }
      else exec (.raise 6 (kindNumber kind) s.cfg.protvMmu vaddr pc pc) s

/-- The binary logarithm of a region's size (30_encoding R117). -/
def regionLog (r : Region) : Nat := if r.size.toNat < 4 then 5 else r.size.toNat + 1

/-- The lowest address of a region: its base address rounded down to its size (42_mpu R190). -/
def lowestAddress (r : Region) : Nat := r.base.toNat * 32 / 2 ^ regionLog r * 2 ^ regionLog r

/-- The highest address of a region (42_mpu R190). -/
def highestAddress (r : Region) : Nat := lowestAddress r + 2 ^ regionLog r - 1

/-- 42_mpu R190, 30_encoding R117: a region covers exactly the addresses from its lowest to its highest, in every size
class. -/
def Obligations.RegionCoversItsAddressRange : Prop :=
  ∀ (r : Region) (a : Word), covers r a = true ↔ lowestAddress r ≤ a.toNat ∧ a.toNat ≤ highestAddress r

/-- 42_mpu R191: the lowest-numbered valid region that covers the address answers, and the default region when none
does. -/
def Obligations.LowestCoveringRegionAnswers : Prop :=
  ∀ (s : State) (a : Word) (r : Nat), s.findRegion a = r ↔
    (r < s.cfg.mpuRegions ∧ (s.region r).valid = true ∧ covers (s.region r) a = true ∨ r = s.cfg.mpuRegions) ∧
    ∀ j < r, ¬((s.region j).valid = true ∧ covers (s.region j) a = true)

/-- 42_mpu R192 to R194, R196: the region's permission set, or `DPERM`, decides; the kernel has the user's rights too; a
violation records `MPU_ECR` and raises ProtV. -/
def Obligations.MpuCheckDecidesByTheAnsweringRegion : Prop :=
  ∀ (kind : AccessKind) (vaddr pc : Word) (s : State) (r : Nat) (p : BitVec 6), s.routeOf vaddr = .useMpu →
    s.findRegion vaddr = r → p = (if r = s.cfg.mpuRegions then s.mpu.dperm else (s.region r).perm) →
    exec (translateInstr kind vaddr pc) s =
      if p.getLsbD (permBit true kind) || (!s.status.u && p.getLsbD (permBit false kind)) then
        .next { s with out := { Outputs.none with
          paddr := some vaddr,
          permOut := some (if s.status.u then p.extractLsb' 0 3 else p.extractLsb' 3 3 ||| p.extractLsb' 0 3),
          cacheable := some true, pageGranular := some (s.pageGranular vaddr r) } }
      else
        exec (.raise 6 (kindNumber kind) s.cfg.protvMpu vaddr pc pc)
          { s with mpu.ecr := (6#32 <<< 16) ||| ((kindNumber kind).setWidth 32 <<< 8) ||| BitVec.ofNat 32 r }

/-- 42_mpu R197, R198: `page_granular` is set exactly when no valid region of higher priority has a footprint that meets
the page, and the region that answered is the default one or at least a page large. The region that answered then
answers for every address of the page, so that one downstream entry may hold the permission of the whole page. -/
def Obligations.PageGranularPermissionHoldsForThePage : Prop :=
  ∀ s : State, s.cfg.wf = true →
    (∀ (a : Word) (r : Nat), r ≤ s.cfg.mpuRegions → (s.pageGranular a r = true ↔
      (∀ j < r, (s.region j).valid = true →
        ¬(lowestAddress (s.region j) / 2 ^ s.cfg.pageBits ≤ a.toNat / 2 ^ s.cfg.pageBits ∧
          a.toNat / 2 ^ s.cfg.pageBits ≤ highestAddress (s.region j) / 2 ^ s.cfg.pageBits)) ∧
      (r = s.cfg.mpuRegions ∨ s.cfg.pageBits ≤ regionLog (s.region r)))) ∧
    ∀ a b : Word, a >>> s.cfg.pageBits = b >>> s.cfg.pageBits →
      s.pageGranular a (s.findRegion a) = true → s.findRegion b = s.findRegion a

/-! ### TLB commands -/

/-- 41_tlb R151: the descriptor words hold an entry whole, and an entry holds the descriptor words' fields whole. -/
def Obligations.EntriesAndDescriptorsRoundTrip : Prop :=
  ∀ cfg : Config, cfg.wf = true →
    (∀ e : TlbEntry, pageFits cfg e.vpn → pageFits cfg e.ppn → toEntry cfg (pd0Of cfg e) (pd1Of cfg e) = e) ∧
    (∀ a b : Word, pd0Of cfg (toEntry cfg a b) = a &&& pd0Mask cfg ∧ pd1Of cfg (toEntry cfg a b) = b &&& pd1Mask cfg)

/-- 41_tlb R152 to R154: READ copies the entry `TLBINDEX` names into the descriptor registers and clears the event
bits; WRITE and WRITENI write that slot whatever it holds, and WRITE alone flushes. -/
def Obligations.TlbReadAndWriteUseTheIndexedSlot : Prop :=
  ∀ (pc : Word) (s : State), s.status.u = false →
    exec (.tlbcmdRead pc) s =
      .next { s with
        out := Outputs.none
        tlb.pd0 := pd0Of s.cfg (s.entry (s.tlb.index.index.extractLsb' 2 8) (s.tlb.index.index.extractLsb' 0 2))
        tlb.pd1 := pd1Of s.cfg (s.entry (s.tlb.index.index.extractLsb' 2 8) (s.tlb.index.index.extractLsb' 0 2))
        tlb.index.e := false
        tlb.index.nv := false } ∧
    ∃ t, exec (.tlbcmdWriteNi pc) s = .next t ∧
      exec (.tlbcmdWrite pc) s = .next { t with out.flushOut := [.all] } ∧
      t = { s with tlb.entries := t.tlb.entries, out := Outputs.none } ∧
      ∀ st way, t.entry st way =
        if st ++ way = s.tlb.index.index then toEntry s.cfg s.tlb.pd0 s.tlb.pd1 else s.entry st way

/-- 41_tlb R155 to R157: DELETE invalidates every way that matches `PD0`'s tag and nothing else; it flags no match in
`E`, names a single match in `INDEX`, and flushes when it deleted. -/
def Obligations.DeleteInvalidatesEveryMatch : Prop :=
  ∀ (pc : Word) (s : State) (st : BitVec 8) (found : List (BitVec 2)), s.status.u = false →
    st = (s.tlb.pd0 >>> s.cfg.pageBits).setWidth 8 →
    found = s.matches (s.tlb.pd0 >>> s.cfg.pageBits) (s.tlb.pd0.setWidth 8) →
    ∃ t, exec (.tlbcmdDelete pc) s = .next t ∧
      t = { s with tlb.entries := t.tlb.entries, tlb.index := t.tlb.index, out := t.out } ∧
      (∀ st' way, t.entry st' way =
        if st' = st ∧ way ∈ found then { s.entry st' way with v := false } else s.entry st' way) ∧
      t.tlb.index.nv = false ∧ t.tlb.index.e = decide (found = []) ∧
      t.tlb.index.index = (if h : found.length = 1 then st ++ found[0] else s.tlb.index.index) ∧
      t.out = { Outputs.none with flushOut := if found = [] then [] else [.all] }

/-- 41_tlb R158 to R161: INSERT flushes the page first; with `V` clear it flags `NV` and writes nothing; otherwise it
overwrites the lowest match in place and invalidates the others, or replaces the victim, and in both cases names the way
in `INDEX` and advances the victim pointer. -/
def Obligations.InsertWritesTheMatchOrTheVictim : Prop :=
  ∀ (pc : Word) (s : State) (st : BitVec 8) (found : List (BitVec 2)) (dest : BitVec 2), s.status.u = false →
    st = (s.tlb.pd0 >>> s.cfg.pageBits).setWidth 8 →
    found = s.matches (s.tlb.pd0 >>> s.cfg.pageBits) (s.tlb.pd0.setWidth 8) →
    dest = found.headD (s.victim st) →
    ∃ t, exec (.tlbcmdInsert pc) s = .next t ∧
      t = { s with tlb.entries := t.tlb.entries, tlb.rr := t.tlb.rr, tlb.index := t.tlb.index, out := t.out } ∧
      t.out = { Outputs.none with
        flushOut := [.page (s.tlb.pd0 >>> s.cfg.pageBits) (s.tlb.pd0.setWidth 8)] } ∧
      if s.tlb.pd0.getLsbD 9 then
        (∀ st' way, t.entry st' way =
          if st' = st ∧ way = dest then toEntry s.cfg s.tlb.pd0 s.tlb.pd1
          else if st' = st ∧ way ∈ found then { s.entry st' way with v := false }
          else s.entry st' way) ∧
        (∀ st', t.victim st' = if st' = st then s.victim st + 1 else s.victim st') ∧
        t.tlb.index = { e := false, nv := false, index := st ++ dest }
      else
        t.tlb.entries = s.tlb.entries ∧ t.tlb.rr = s.tlb.rr ∧
        t.tlb.index = { e := false, nv := true, index := s.tlb.index.index }

/-- 41_tlb R144, R160: after an INSERT of a valid mapping exactly one way matches its tag, the one `TLBINDEX` names. -/
def Obligations.InsertLeavesExactlyOneMatch : Prop :=
  ∀ (pc : Word) (s t : State), s.status.u = false → s.tlb.pd0.getLsbD 9 = true →
    exec (.tlbcmdInsert pc) s = .next t →
    t.matches (s.tlb.pd0 >>> s.cfg.pageBits) (s.tlb.pd0.setWidth 8) = [t.tlb.index.index.extractLsb' 0 2]

/-- The entry indices a run of INSERTs records, each after its descriptor words are placed in `PD0` and `PD1`. -/
def insertedIndices (pc : Word) : List (Word × Word) → State → List (BitVec 10)
  | [], _ => []
  | (pd0, pd1) :: more, s =>
    match exec (.tlbcmdInsert pc) { s with tlb.pd0 := pd0, tlb.pd1 := pd1 } with
    | .next t => t.tlb.index.index :: insertedIndices pc more t
    | _ => []

/-- Every INSERT of a run goes into set `st`, with a valid mapping that nothing in the set matches. -/
def insertsAfresh (pc : Word) (st : BitVec 8) : List (Word × Word) → State → Prop
  | [], _ => True
  | (pd0, pd1) :: more, s =>
    pd0.getLsbD 9 = true ∧ (pd0 >>> s.cfg.pageBits).setWidth 8 = st ∧
    s.matches (pd0 >>> s.cfg.pageBits) (pd0.setWidth 8) = [] ∧
    ∀ t, exec (.tlbcmdInsert pc) { s with tlb.pd0 := pd0, tlb.pd1 := pd1 } = .next t → insertsAfresh pc st more t

/-- 41_tlb R163: from `rr[st] = k`, `N` INSERTs into the set with no match write the ways `k, k+1, …, k+N-1` modulo 4,
whatever they insert. -/
def Obligations.ReplacementIsStrictRoundRobin : Prop :=
  ∀ (pc : Word) (st : BitVec 8) (run : List (Word × Word)) (s : State), s.status.u = false →
    insertsAfresh pc st run s →
    insertedIndices pc run s = (List.range run.length).map fun n => st ++ (s.victim st + BitVec.ofNat 2 n)

/-- 41_tlb R162: no request but INSERT and RESET moves a victim pointer. -/
def Obligations.OnlyInsertAndResetMoveVictims : Prop :=
  ∀ (i : Instr) (s t : State), WellFormed s.cfg i = true → (∀ pc, i ≠ .tlbcmdInsert pc) → i ≠ .reset →
    exec i s = .next t → t.tlb.rr = s.tlb.rr

/-- 41_tlb R165: TLB_FLUSH_EXT invalidates every entry, in either mode, and flushes; everything else stays. -/
def Obligations.FlushExtInvalidatesEveryEntry : Prop :=
  ∀ s : State, ∃ t, exec .tlbFlushExt s = .next t ∧
    t = { s with tlb.entries := t.tlb.entries, out := { Outputs.none with flushOut := [.all] } } ∧
    ∀ st way, t.entry st way = { s.entry st way with v := false }

/-! ### Auxiliary registers -/

/-- 10_state R51: an auxiliary access, and with it every TLB command, made in user mode raises PrivilegeViolation
instead. -/
def Obligations.UserAuxAccessRaisesPrivilegeViolation : Prop :=
  ∀ (s : State) (id wdata pc : Word), s.status.u = true →
    ∀ i ∈ [Instr.auxRead id pc, .auxWrite id wdata pc, .tlbcmdWrite pc, .tlbcmdRead pc, .tlbcmdWriteNi pc,
      .tlbcmdInsert pc, .tlbcmdDelete pc], exec i s = exec (.raise 7 0 0 pc pc pc) s

/-- `IRQ_SELECT` names a source (43_interrupts R232). -/
def selectsSource (s : State) : Prop := 16 ≤ s.irq.select.toNat ∧ s.irq.select.toNat < 16 + s.cfg.numIrq

/-- The registers that address the source `IRQ_SELECT` names (43_interrupts R232). -/
def perVectorRegs : List AuxReg := [.irqPriority, .irqEnable, .irqTrigger, .irqPending, .irqPulseCancel]

/-- The access of register `r` is well formed: a region register exists (42_mpu R200), a per-vector register has a source
(43_interrupts R232). -/
def goodAccess (s : State) (r : AuxReg) : Prop :=
  (∀ i, r = .rdb i ∨ r = .rdp i → i < s.cfg.mpuRegions) ∧ (r ∈ perVectorRegs → selectsSource s)

/-- 30_encoding R97, 43_interrupts R232: `AUX_READ` in kernel mode refuses an unknown id, raises InstructionError for a
malformed access, and otherwise answers the register's value with no other effect. -/
def Obligations.AuxReadAnswersTheRegister : Prop :=
  ∀ (s : State) (id pc : Word), s.status.u = false →
    (s.cfg.auxReg? id = none → exec (.auxRead id pc) s =
      .next { s with refused := true, out := { Outputs.none with refusal := some .unknownAuxId } }) ∧
    ∀ r, s.cfg.auxReg? id = some r →
      (¬goodAccess s r → exec (.auxRead id pc) s = exec (.raise 2 0 0 pc pc pc) s) ∧
      (goodAccess s r → exec (.auxRead id pc) s =
        .next { s with out := { Outputs.none with rdata := some (s.auxValue r) } })

/-- 10_state R44, R52, 43_interrupts R237, R239: the registers that read back something other than the last word
written. A write-only register reads 0; `IRQ_PENDING` reads the computed pending state; `ICAUSE` reads the cause of the
most urgent active level, 0 when none is active; `STATUS` reads the packed status word; the cause and diagnostic
registers read whole. -/
def Obligations.ComputedRegistersReadTheirRule : Prop :=
  ∀ (s : State) (id pc : Word) (r : AuxReg), s.status.u = false → s.cfg.auxReg? id = some r → goodAccess s r →
    ∃ w, exec (.auxRead id pc) s = .next { s with out := { Outputs.none with rdata := some w } } ∧
      (r = .tlbcommand ∨ r = .irqPulseCancel → w = 0) ∧
      (r = .irqPending → w =
        if s.irq.select.toNat - 16 < s.cfg.numHwIrq then
          if (s.source (s.irq.select.toNat - 16)).trig then
            if (s.source (s.irq.select.toNat - 16)).plat then 1 else 0
          else if s.lineOf (s.irq.select.toNat - 16) then 1 else 0
        else if s.irq.hint = s.irq.select then 1 else 0) ∧
      (r = .icause → (s.irq.act = 0 → w = 0) ∧
        ∀ p < 16, s.irq.act.getLsbD p = true → (∀ q < p, s.irq.act.getLsbD q = false) →
          w = (s.irq.icause.getD p 0).setWidth 32) ∧
      (r = .status → w = packStatus s.status) ∧
      (r = .ecr → w = s.exc.ecr) ∧ (r = .mpuEcr → w = s.mpu.ecr) ∧
      (r = .irqSelect → w = s.irq.select.setWidth 32) ∧ (r = .irqHint → w = s.irq.hint.setWidth 32) ∧
      (r = .irqPriority → w.toNat = (s.source (s.irq.select.toNat - 16)).prio.toNat) ∧
      (r = .irqCtrl → w.toNat = s.irq.ctrl.nr.toNat + 2 ^ 9 * s.irq.ctrl.b.toNat + 2 ^ 10 * s.irq.ctrl.l.toNat +
        2 ^ 11 * s.irq.ctrl.u.toNat + 2 ^ 13 * s.irq.ctrl.lp.toNat)

/-- 30_encoding R98 and the refusals of R96: `AUX_WRITE` in kernel mode refuses an unknown id and an unknown command
code, raises InstructionError for a malformed access, and does nothing to a read-only register (10_state R52).
That a write of `IRQ_PENDING` is such an access is DEDUCED [log 12]. -/
def Obligations.AuxWriteRefusesFaultsOrIgnores : Prop :=
  ∀ (s : State) (id w pc : Word), s.status.u = false →
    (s.cfg.auxReg? id = none → exec (.auxWrite id w pc) s =
      .next { s with refused := true, out := { Outputs.none with refusal := some .unknownAuxId } }) ∧
    (s.cfg.auxReg? id = some .tlbcommand → w ∉ [0x1, 0x2, 0x5, 0x7, 0x8] → exec (.auxWrite id w pc) s =
      .next { s with refused := true, out := { Outputs.none with refusal := some .unknownTlbCommand } }) ∧
    ∀ r, s.cfg.auxReg? id = some r →
      (¬goodAccess s r → exec (.auxWrite id w pc) s = exec (.raise 2 0 0 pc pc pc) s) ∧
      (goodAccess s r → r ∈ [.mpuEcr, .ecr, .icause, .status, .irqPending] →
        exec (.auxWrite id w pc) s = .next { s with out := Outputs.none })

/-- 30_encoding R98, R126: a write of a register without side effect stores its word, reserved bits aside, and changes
nothing else. -/
def Obligations.PlainAuxWriteStoresItsWord : Prop :=
  ∀ (s : State) (id w pc : Word), s.status.u = false →
    (s.cfg.auxReg? id = some .efa → exec (.auxWrite id w pc) s = .next { s with exc.efa := w, out := Outputs.none }) ∧
    (s.cfg.auxReg? id = some .eret →
      exec (.auxWrite id w pc) s = .next { s with exc.eret := w, out := Outputs.none }) ∧
    (s.cfg.auxReg? id = some .erstatus →
      exec (.auxWrite id w pc) s = .next { s with exc.erstatus := w, out := Outputs.none }) ∧
    (s.cfg.auxReg? id = some .erbta →
      exec (.auxWrite id w pc) s = .next { s with exc.erbta := w, out := Outputs.none }) ∧
    (s.cfg.auxReg? id = some .ivb → exec (.auxWrite id w pc) s = .next { s with exc.ivb := w, out := Outputs.none }) ∧
    (s.cfg.auxReg? id = some .statusP0 →
      exec (.auxWrite id w pc) s = .next { s with exc.statusP0 := w, out := Outputs.none }) ∧
    (s.cfg.auxReg? id = some .userSp →
      exec (.auxWrite id w pc) s = .next { s with cpu.userSp := w, out := Outputs.none }) ∧
    (s.cfg.auxReg? id = some .pd0 →
      exec (.auxWrite id w pc) s = .next { s with tlb.pd0 := w &&& pd0Mask s.cfg, out := Outputs.none }) ∧
    (s.cfg.auxReg? id = some .pd1 →
      exec (.auxWrite id w pc) s = .next { s with tlb.pd1 := w &&& pd1Mask s.cfg, out := Outputs.none }) ∧
    (s.cfg.auxReg? id = some .tlbindex → exec (.auxWrite id w pc) s =
      .next { s with
        tlb.index := { e := w.getLsbD 31, nv := w.getLsbD 30, index := w.setWidth 10 }
        out := Outputs.none })

/-- 41_tlb R166, R167, 42_mpu R199: a write of `PID`, `SASID0`, `SASID1`, `MPU_EN`, `RDB[i]` or `RDP[i]` stores its
fields and flushes the whole downstream cache; the TLB's entries and every other region stay. -/
def Obligations.TranslationRegisterWritesFlushAll : Prop :=
  ∀ (s : State) (id w pc : Word), s.status.u = false →
    (s.cfg.auxReg? id = some .pid → exec (.auxWrite id w pc) s =
      .next { s with
        tlb.pid := { t := w.getLsbD 31, asid := w.setWidth 8 }
        out := { Outputs.none with flushOut := [.all] } }) ∧
    (s.cfg.auxReg? id = some .sasid0 → exec (.auxWrite id w pc) s =
      .next { s with tlb.sasid0 := w, out := { Outputs.none with flushOut := [.all] } }) ∧
    (s.cfg.auxReg? id = some .sasid1 → exec (.auxWrite id w pc) s =
      .next { s with tlb.sasid1 := w, out := { Outputs.none with flushOut := [.all] } }) ∧
    (s.cfg.auxReg? id = some .mpuEn → exec (.auxWrite id w pc) s =
      .next { s with
        mpu.en := w.getLsbD 30
        mpu.dperm := w.extractLsb' 3 6
        out := { Outputs.none with flushOut := [.all] } }) ∧
    ∀ i < s.cfg.mpuRegions, i < 16 → ∀ r, s.cfg.auxReg? id = some r → r = .rdb i ∨ r = .rdp i →
      ∃ t, exec (.auxWrite id w pc) s = .next t ∧
        t = { s with mpu.regions := t.mpu.regions, out := { Outputs.none with flushOut := [.all] } } ∧
        (∀ j ≠ i, t.region j = s.region j) ∧
        t.region i =
          if r = .rdb i then { s.region i with base := w.extractLsb' 5 27, valid := w.getLsbD 0 }
          else { s.region i with size := w.extractLsb' 9 5, perm := w.extractLsb' 3 6 }

/-- The bits of a written word that a register reads back, for the registers a write stores as written (30_encoding R106
to R126): every other bit is reserved. -/
def storedBits (cfg : Config) : AuxReg → Option Word
  | .pd0 => some (pd0Mask cfg)
  | .pd1 => some (pd1Mask cfg)
  | .tlbindex => some 0xC00003FF
  | .pid => some 0x800000FF
  | .sasid0 => some 0xFFFFFFFF
  | .sasid1 => some 0xFFFFFFFF
  | .mpuEn => some 0x400001F8
  | .rdb _ => some 0xFFFFFFE1
  | .rdp _ => some 0x3FF8
  | .efa => some 0xFFFFFFFF
  | .eret => some 0xFFFFFFFF
  | .erstatus => some 0xFFFFFFFF
  | .erbta => some 0xFFFFFFFF
  | .ivb => some 0xFFFFFFFF
  | .userSp => some 0xFFFFFFFF
  | .statusP0 => some 0xFFFFFFFF
  | .irqEnable => some 1
  | .irqTrigger => some 1
  | .irqAct => some (0x80000000 ||| ((1#32 <<< cfg.numPrio) - 1))
  | _ => none

/-- 30_encoding R98, 93 K14: a register that takes what is written reads back the written word with its reserved bits
0. -/
def Obligations.WrittenRegisterReadsBackWithoutReservedBits : Prop :=
  ∀ (s : State) (id w pc pc' mask : Word) (r : AuxReg), s.cfg.wf = true → s.status.u = false →
    s.cfg.auxReg? id = some r → goodAccess s r → storedBits s.cfg r = some mask →
    ∃ t u, exec (.auxWrite id w pc) s = .next t ∧ exec (.auxRead id pc') t = .next u ∧
      u.out.rdata = some (w &&& mask) ∧ t.out.fault = none

/-- 43_interrupts R232 to R236, R238, R241: what a write of each interrupt register stores, and that nothing but its
field changes. -/
def Obligations.IrqRegisterWritesStoreTheirField : Prop :=
  ∀ (s : State) (id w pc : Word), s.cfg.wf = true → s.status.u = false →
    (s.cfg.auxReg? id = some .irqSelect → exec (.auxWrite id w pc) s =
      if 16 ≤ (w.setWidth 8).toNat ∧ (w.setWidth 8).toNat < 16 + s.cfg.numIrq then
        .next { s with irq.select := w.setWidth 8, out := Outputs.none }
      else exec (.raise 2 0 0 pc pc pc) s) ∧
    (s.cfg.auxReg? id = some .irqHint → exec (.auxWrite id w pc) s =
      .next { s with
        irq.hint :=
          if 16 + s.cfg.numHwIrq ≤ (w.setWidth 8).toNat ∧ (w.setWidth 8).toNat < 16 + s.cfg.numIrq then w.setWidth 8
          else 0
        out := Outputs.none }) ∧
    (s.cfg.auxReg? id = some .irqCtrl → exec (.auxWrite id w pc) s =
      if 14 < (w.setWidth 5).toNat then exec (.raise 2 0 0 pc pc pc) s
      else .next { s with
        irq.ctrl :=
          { nr := w.setWidth 5, b := w.getLsbD 9, l := w.getLsbD 10, u := w.getLsbD 11, lp := w.getLsbD 13 }
        out := Outputs.none }) ∧
    (s.cfg.auxReg? id = some .irqAct → exec (.auxWrite id w pc) s =
      .next { s with
        irq.act := w.setWidth 16 &&& (BitVec.ofNat 16 (2 ^ s.cfg.numPrio - 1))
        irq.actU := w.getLsbD 31
        out := Outputs.none }) ∧
    (selectsSource s → ∀ r ∈ [AuxReg.irqPriority, .irqEnable, .irqTrigger, .irqPulseCancel],
      s.cfg.auxReg? id = some r → ∃ t, exec (.auxWrite id w pc) s = .next t ∧
        t = { s with irq.sources := t.irq.sources, out := Outputs.none } ∧
        (∀ n ≠ s.irq.select.toNat - 16, t.source n = s.source n) ∧
        (r = .irqPriority → ∃ p : BitVec 4, p.toNat = min (w.toNat % 16) (s.cfg.numPrio - 1) ∧
          t.source (s.irq.select.toNat - 16) = { s.source (s.irq.select.toNat - 16) with prio := p }) ∧
        (r = .irqEnable → t.source (s.irq.select.toNat - 16) =
          { s.source (s.irq.select.toNat - 16) with en := w.getLsbD 0 }) ∧
        (r = .irqTrigger → t.source (s.irq.select.toNat - 16) =
          { s.source (s.irq.select.toNat - 16) with trig := w.getLsbD 0 }) ∧
        (r = .irqPulseCancel → t.source (s.irq.select.toNat - 16) =
          { s.source (s.irq.select.toNat - 16) with
            plat := (s.source (s.irq.select.toNat - 16)).plat && !w.getLsbD 0 }))

/-! ### Exceptions -/

/-- `t` has the stack pointers of `s` exchanged if `switched`, and every other CPU register of `s` (10_state R24): the
registers are read in the bank of `s`. -/
structure StackSwitched (switched : Bool) (s t : State) : Prop where
  sp : t.regInBank s.status.rb regSp = if switched then s.cpu.userSp else s.readReg regSp
  userSp : t.cpu.userSp = if switched then s.readReg regSp else s.cpu.userSp
  others : ∀ i ≠ regSp, ∀ rb, t.regInBank rb i = s.regInBank rb i
  rest : t.cpu = { s.cpu with core := t.cpu.core, bank0 := t.cpu.bank0, bank1 := t.cpu.bank1, userSp := t.cpu.userSp }

/-- 60_exceptions R285 to R288, R290, R292, R293: RAISE with no exception active saves the status, the branch target and
the return address, records cause and fault address, enters kernel mode with interrupts off, switches the stack if it
came from user mode, and goes to the word of the vector table, before whose fetch another agent may write memory
(20_memory R76) [log 9]. -/
def Obligations.RaiseEntersTheException : Prop :=
  ∀ (s : State) (vector cause param : Byte) (faddr pc retPc : Word), s.cfg.wf = true → s.status.ae = false →
    ∃ t, exec (.raise vector cause param faddr pc retPc) s = .next t ∧
      t = { s with
        cpu := t.cpu, mem := s.agentsMove.mem, otherAgents := s.agentsMove.otherAgents
        exc := { s.exc with
          erstatus := packStatus s.status
          erbta := s.cpu.bta
          eret := retPc
          ecr := (vector.setWidth 32 <<< 16) ||| (cause.setWidth 32 <<< 8) ||| param.setWidth 32
          efa := if vector ∈ ([0, 1, 2, 3, 7, 8, 9] : List Byte) then pc else faddr }
        status := { s.status with
          u := false, ie := false, ae := true, h := false, pu := s.status.u, l := true, de := false }
        out := { Outputs.none with
          nextPc := some (s.agentsMove.word (s.exc.ivb + (vector.setWidth 32 <<< 2)))
          fault := some { vector, cause, param, faddr } } } ∧
      StackSwitched s.status.u s t

/-- 60_exceptions R284: RAISE with an exception active escalates to MachineCheck, disables both engines, flushes, and
keeps the first fault's snapshots and the stack pointers. The descriptor's fault address is the model's reading of R95
[log 13]. -/
def Obligations.DoubleFaultEscalates : Prop :=
  ∀ (s : State) (vector cause param : Byte) (faddr pc retPc : Word), s.status.ae = true →
    exec (.raise vector cause param faddr pc retPc) s =
      .next { s with
        mem := s.agentsMove.mem, otherAgents := s.agentsMove.otherAgents
        tlb.pid.t := false, mpu.en := false
        exc.ecr := 0x00030000, exc.efa := pc
        status := { s.status with pu := s.status.u, u := false, ie := false, h := false, l := true, de := false }
        out := { Outputs.none with
          flushOut := [.all], nextPc := some (s.agentsMove.word (s.exc.ivb + 12))
          fault := some { vector := 3, cause := 0, param := 0, faddr } } }

/-- 60_exceptions R296, R297: RETURN with an exception active restores the status word and the branch target, switches
back to the user stack if it returns to user mode, and goes to `ERET`; with nothing active it is refused. -/
def Obligations.ReturnLeavesTheException : Prop :=
  ∀ s : State, s.cfg.wf = true →
    (s.status.ae = true → ∃ t, exec .ret s = .next t ∧
      t = { s with
        status := unpackStatus s.cfg s.exc.erstatus, cpu := t.cpu
        out := { Outputs.none with nextPc := some s.exc.eret } } ∧
      StackSwitched t.status.u { s with cpu.bta := s.exc.erbta } t) ∧
    (s.status.ae = false → s.irq.act = 0 → exec .ret s =
      .next { s with refused := true, out := { Outputs.none with refusal := some .returnNothingActive } })

/-- 60_exceptions R285, R297 (their example): a RETURN after an exception entry restores the status word, both stack
pointers and every other register, and goes to the return address the entry was given. -/
def Obligations.ReturnUndoesExceptionEntry : Prop :=
  ∀ (s t : State) (vector cause param : Byte) (faddr pc retPc : Word), s.Inv → s.status.ae = false →
    exec (.raise vector cause param faddr pc retPc) s = .next t →
    ∃ u, exec .ret t = .next u ∧ u.status = s.status ∧ (∀ i, u.readReg i = s.readReg i) ∧
      u.cpu.userSp = s.cpu.userSp ∧ u.cpu.bta = s.cpu.bta ∧ u.out.nextPc = some retPc

/-- 60_exceptions R284, R285, R302: a request that raises a fault, in whichever rule, leaves kernel mode with interrupts
off and an exception active, and records in `ECR` the cause of its fault descriptor. -/
def Obligations.EveryFaultEntersKernelMode : Prop :=
  ∀ (i : Instr) (s t : State) (f : FaultDesc), exec i s = .next t → t.out.fault = some f →
    t.status.u = false ∧ t.status.ie = false ∧ t.status.ae = true ∧ t.status.h = false ∧
    t.exc.ecr = (f.vector.setWidth 32 <<< 16) ||| (f.cause.setWidth 32 <<< 8) ||| f.param.setWidth 32 ∧
    t.out.nextPc.isSome

/-- 60_exceptions R289: no request writes `ECR` but by raising an exception. That RESET does not write it either is the
model's reading of 70 R320 against the tables of 10_state R30 and 70 R321 (DEDUCED) [log 7]. -/
def Obligations.OnlyExceptionsWriteEcr : Prop :=
  ∀ (i : Instr) (s t : State), exec i s = .next t → t.out.fault = none → t.exc.ecr = s.exc.ecr

/-- 60_exceptions R302, 10_state R28: user mode is entered only by RETURN or STATUS_WRITE, and no other request but RESET
touches a condition flag. -/
def Obligations.OnlyReturnAndStatusWriteEnterUserMode : Prop :=
  ∀ (i : Instr) (s t : State), exec i s = .next t → i ≠ .ret → (∀ w, i ≠ .statusWrite w) →
    (s.status.u = false → t.status.u = false) ∧
    (i ≠ .reset → t.status.v = s.status.v ∧ t.status.c = s.status.c ∧ t.status.n = s.status.n ∧
      t.status.z = s.status.z)

/-- 30_encoding R106, 60_exceptions R300, R301: STATUS_READ answers the packed status word and STATUS_WRITE unpacks one,
every field at once, in either mode; neither changes anything else, and the packed word of a written one is the written
word without its reserved bits. -/
def Obligations.StatusWordWritesAndReadsWhole : Prop :=
  ∀ (s : State) (w : Word),
    exec .statusRead s = .next { s with out := { Outputs.none with rdata := some (packStatus s.status) } } ∧
    ∃ t, exec (.statusWrite w) s = .next t ∧ t = { s with status := t.status, out := Outputs.none } ∧
      packStatus t.status = w &&& (if s.cfg.numBanks = 2 then 0x80010FE7 else 0x80000FE7) ∧
      (t.status.h, t.status.pu, t.status.l, t.status.ae) = (w.getLsbD 0, w.getLsbD 1, w.getLsbD 2, w.getLsbD 5) ∧
      (t.status.de, t.status.u, t.status.v, t.status.c) = (w.getLsbD 6, w.getLsbD 7, w.getLsbD 8, w.getLsbD 9) ∧
      (t.status.n, t.status.z, t.status.ie) = (w.getLsbD 10, w.getLsbD 11, w.getLsbD 31) ∧
      t.status.rb = (decide (s.cfg.numBanks = 2) && w.getLsbD 16)

/-! ### Interrupts -/

/-- 10_state R44, 43_interrupts R231: what LINE does to an input, the latch a rising edge sets, and when it is refused;
a latched pulse source is pending after its line falls. -/
def Obligations.LineDrivesItsInput : Prop :=
  ∀ (s : State) (src : Byte) (level : Bool), s.cfg.wf = true →
    (src = 0xFF → exec (.line src level) s = .next { s with irq.irqReq := level, out := Outputs.none }) ∧
    (src ≠ 0xFF → s.cfg.numHwIrq ≤ src.toNat → exec (.line src level) s =
      .next { s with refused := true, out := { Outputs.none with refusal := some .lineNotHardware } }) ∧
    (src.toNat < s.cfg.numHwIrq → ∃ t, exec (.line src level) s = .next t ∧
      t = { s with irq.lines := t.irq.lines, irq.sources := t.irq.sources, out := Outputs.none } ∧
      t.lineOf src.toNat = level ∧ (∀ n ≠ src.toNat, t.lineOf n = s.lineOf n ∧ t.source n = s.source n) ∧
      t.source src.toNat = { s.source src.toNat with
        plat := (s.source src.toNat).plat ||
          ((s.source src.toNat).trig && !s.lineOf src.toNat && level) } ∧
      t.pending src.toNat = if (s.source src.toNat).trig then (t.source src.toNat).plat else level)

/-- 43_interrupts R243, R244: the encoder selects the eligible source with the least priority, and the least number among
those; none when none is eligible. -/
def Obligations.EncoderSelectsTheMostUrgentLowestSource : Prop :=
  ∀ s : State,
    (s.select = none ↔ ∀ n < s.cfg.numIrq, s.eligible n = false) ∧
    ∀ n, s.select = some n ↔
      n < s.cfg.numIrq ∧ (s.source n).en = true ∧ s.pending n = true ∧
      ∀ m < s.cfg.numIrq, (s.source m).en = true → s.pending m = true →
        (s.source n).prio.toNat < (s.source m).prio.toNat ∨
        ((s.source n).prio.toNat = (s.source m).prio.toNat ∧ n ≤ m)

/-- 43_interrupts R242, R245, R246, R249, R259: a poll changes nothing but the outputs when the gate is closed, when no
source is eligible, or when the selected priority is not above every active one; and it refuses the one entry whose
return could not find its frame. -/
def Obligations.PollTakesNothingUnlessUrgent : Prop :=
  ∀ (s : State) (pc : Word),
    (s.status.h = true ∨ s.status.ie = false ∨ s.status.ae = true ∨ s.status.de = true ∨ s.irq.irqReq = false →
      exec (.irqPoll pc) s = .next { s with out := Outputs.none }) ∧
    (s.select = none → exec (.irqPoll pc) s = .next { s with out := Outputs.none }) ∧
    (∀ n q, s.select = some n → s.irq.act.getLsbD q = true → q ≤ (s.source n).prio.toNat →
      exec (.irqPoll pc) s = .next { s with out := Outputs.none }) ∧
    (∀ n, s.gateOpen = true → s.select = some n → (s.source n).prio.toNat < s.currentPrio →
      ¬((s.source n).prio = 0 ∧ s.cfg.firqPresent = true) →
      s.status.u = true → s.irq.ctrl.u = true → s.irq.act ≠ 0 →
      exec (.irqPoll pc) s =
        .next { s with refused := true, out := { Outputs.none with refusal := some .userEntryWhileActive } })

/-- A poll of `s` takes source `n` (43_interrupts R249). -/
def takes (s : State) (n : Nat) : Prop :=
  s.gateOpen = true ∧ s.select = some n ∧ (s.source n).prio.toNat < s.currentPrio

/-- 43_interrupts R251 to R254: a priority-0 entry with the fast path configured saves status and return address in
`STATUS_P0` and `ILINK`, enters kernel mode in the second bank, switches the stack from user mode, goes to the vector,
and writes no memory. -/
def Obligations.FastEntrySwitchesTheBank : Prop :=
  ∀ (s : State) (n : Nat) (pc : Word), s.Inv → takes s n → (s.source n).prio = 0 → s.cfg.firqPresent = true →
    ∃ t, exec (.irqPoll pc) s = .next t ∧
      t = { s with
        cpu := t.cpu, irq := t.irq, mem := s.agentsMove.mem, otherAgents := s.agentsMove.otherAgents
        exc.statusP0 := packStatus s.status
        status := { s.status with
          pu := s.status.u, u := false, h := false, l := true, de := false
          rb := if s.cfg.numBanks = 2 then true else s.status.rb }
        out := { Outputs.none with
          nextPc := some (s.agentsMove.word (s.exc.ivb + BitVec.ofNat 32 (4 * (16 + n)))) } } ∧
      EntryMarked s t n 0 ∧
      StackSwitched s.status.u (s.writeReg regIlink pc) t

/-- 43_interrupts R255 to R258: a regular entry pushes the frame of R255 on the kernel stack, or on the user stack when
`IRQ_CTRL.U` is set, leaves every other byte of memory and every other register alone, and enters kernel mode at the
vector; it writes no exception register (R250). -/
def Obligations.RegularEntryPushesTheFrame : Prop :=
  ∀ (s : State) (n : Nat) (pc sp : Word), s.Inv → s.undisturbed → takes s n →
    ¬((s.source n).prio = 0 ∧ s.cfg.firqPresent = true) →
    ¬(s.status.u = true ∧ s.irq.ctrl.u = true ∧ s.irq.act ≠ 0) →
    sp = (if s.status.u && !s.irq.ctrl.u then s.cpu.userSp else s.readReg regSp) →
    ∃ t, exec (.irqPoll pc) s = .next t ∧
      t = { s with
        cpu := t.cpu, irq := t.irq, mem := t.mem
        status := { s.status with pu := s.status.u, u := false, h := false, l := true, de := false }
        out := { Outputs.none with
          nextPc := some (t.word (s.exc.ivb + BitVec.ofNat 32 (4 * (16 + n)))) } } ∧
      EntryMarked s t n (s.source n).prio.toNat ∧
      (s.frameWords pc).length = s.frameSize ∧
      (∀ k (h : k < (s.frameWords pc).length), t.word (frameAddr sp k) = (s.frameWords pc)[k]) ∧
      (∀ a, (∀ k < s.frameSize, ¬inWord (frameAddr sp k) a) → t.byte a = s.byte a) ∧
      t.readReg regSp =
        (if s.status.u && s.irq.ctrl.u then s.cpu.userSp else sp - BitVec.ofNat 32 (4 * s.frameSize)) ∧
      t.cpu.userSp =
        (if s.status.u then
          if s.irq.ctrl.u then sp - BitVec.ofNat 32 (4 * s.frameSize) else s.readReg regSp
        else s.cpu.userSp) ∧
      (∀ i ≠ regSp, ∀ rb, t.regInBank rb i = s.regInBank rb i) ∧
      t.cpu = { s.cpu with core := t.cpu.core, bank0 := t.cpu.bank0, bank1 := t.cpu.bank1, userSp := t.cpu.userSp }

/-- 43_interrupts R246, R247: an entry sets a bit of `ACT` below every bit already set, so that the levels of nested
interrupts decrease inward. -/
def Obligations.NestedEntriesAreMoreUrgent : Prop :=
  ∀ (s t : State) (pc : Word), s.Inv → exec (.irqPoll pc) s = .next t →
    t.irq.act = s.irq.act ∨
    ∃ p < s.cfg.numPrio, t.irq.act = s.irq.act ||| (1#16 <<< p) ∧ ∀ q, s.irq.act.getLsbD q = true → p < q

/-- 43_interrupts R260, R261: the fast return restores the status word and with it the interrupted bank, goes to `ILINK`,
clears level 0, and switches back to the user stack if it returns to user mode. -/
def Obligations.FastReturnRestoresTheBank : Prop :=
  ∀ s : State, s.cfg.wf = true → s.status.ae = false → s.irq.act.getLsbD 0 = true → s.cfg.firqPresent = true →
    ∃ t, exec .ret s = .next t ∧
      t = { s with
        cpu := t.cpu, status := unpackStatus s.cfg s.exc.statusP0
        irq.act := s.irq.act &&& 0xFFFE#16
        irq.actU := s.irq.actU && decide (s.irq.act &&& 0xFFFE#16 ≠ 0)
        out := { Outputs.none with nextPc := some (s.readReg regIlink) } } ∧
      StackSwitched t.status.u s t

/-- The most urgent active level of `s` is `p`, and the regular path returns from it (43_interrupts R260). -/
def returnsFrom (s : State) (p : Nat) : Prop :=
  s.status.ae = false ∧ s.irq.act.getLsbD p = true ∧ (∀ q < p, s.irq.act.getLsbD q = false) ∧
  ¬(p = 0 ∧ s.cfg.firqPresent = true)

/-- 43_interrupts R262: the regular return pops the frame that `IRQ_CTRL` names, in reverse order, from the user stack
when the frame lies there; it restores the registers in the handler's bank and leaves the other bank alone (10_state
R23), restores the status word and the return address, clears the level, and ends on the stack of the mode it returns
to. It writes no memory. -/
def Obligations.RegularReturnPopsTheFrame : Prop :=
  ∀ (s : State) (p m : Nat) (sp : Word) (onUser : Bool) (w : Nat → Word), s.Inv → s.undisturbed → returnsFrom s p →
    onUser = (s.irq.ctrl.u && s.irq.actU && (List.range 16).all fun q => s.irq.act.getLsbD q == decide (q = p)) →
    sp = (if onUser then s.cpu.userSp else s.readReg regSp) →
    (∀ k, w k = s.word (sp + BitVec.ofNat 32 (4 * (s.frameSize - 1 - k)))) →
    m = 2 + 3 * (s.cfg.codeDensity && s.irq.ctrl.lp).toNat →
    ∃ t, exec .ret s = .next t ∧
      t = { s with
        cpu := t.cpu, status := unpackStatus s.cfg (w 0)
        irq.act := s.irq.act &&& ~~~(1#16 <<< p)
        irq.actU := s.irq.actU && decide (s.irq.act &&& ~~~(1#16 <<< p) ≠ 0)
        out := { Outputs.none with nextPc := some (w 1) } } ∧
      (s.cfg.codeDensity = true → s.irq.ctrl.lp = true →
        t.cpu.eiBase = w 2 ∧ t.cpu.ldiBase = w 3 ∧ t.cpu.jliBase = w 4) ∧
      (¬(s.cfg.codeDensity = true ∧ s.irq.ctrl.lp = true) →
        t.cpu.eiBase = s.cpu.eiBase ∧ t.cpu.ldiBase = s.cpu.ldiBase ∧ t.cpu.jliBase = s.cpu.jliBase) ∧
      (s.cfg.hasLoop = true → s.irq.ctrl.l = true →
        t.cpu.lpCount = w m ∧ t.cpu.lpStart = w (m + 1) ∧ t.cpu.lpEnd = w (m + 2)) ∧
      (¬(s.cfg.hasLoop = true ∧ s.irq.ctrl.l = true) →
        t.cpu.lpCount = s.cpu.lpCount ∧ t.cpu.lpStart = s.cpu.lpStart ∧ t.cpu.lpEnd = s.cpu.lpEnd) ∧
      (∀ rb, t.regInBank rb regBlink =
        if s.irq.ctrl.b then w (s.frameSize - 1 - 2 * s.irq.ctrl.nr.toNat) else s.readReg regBlink) ∧
      (∀ k < 2 * s.irq.ctrl.nr.toNat, t.regInBank s.status.rb (Fin.ofNat 32 k) =
        w (s.frameSize - 2 * s.irq.ctrl.nr.toNat + k)) ∧
      (s.cfg.numBanks = 2 → ∀ k < 2 * s.irq.ctrl.nr.toNat, s.cfg.bankedSet.getLsbD k = true →
        t.regInBank (!s.status.rb) (Fin.ofNat 32 k) = s.regInBank (!s.status.rb) (Fin.ofNat 32 k)) ∧
      (∀ i : Fin 32, i ≠ regSp → i ≠ regBlink → 2 * s.irq.ctrl.nr.toNat ≤ i.val → ∀ rb,
        t.regInBank rb i = s.regInBank rb i) ∧
      (t.readReg regSp, t.cpu.userSp) =
        (let popped := sp + BitVec.ofNat 32 (4 * s.frameSize)
         let other := if onUser then s.readReg regSp else s.cpu.userSp
         if t.status.u && !onUser then (other, popped) else (popped, other)) ∧
      t.cpu.bta = s.cpu.bta

/-- `h` is a state in which the handler of the regular entry that led to `t` may return: the parameters, `IRQ_CTRL`, the
active bitmap, `STATUS.RB`, both stack pointers and the frame's bytes are those of the entry (43_interrupts R263, 70
R332); every other register and byte may differ. -/
structure HandlerKeptTheFrame (s t h : State) (sp : Word) : Prop where
  cfg : h.cfg = t.cfg
  ctrl : h.irq.ctrl = t.irq.ctrl
  act : h.irq.act = t.irq.act ∧ h.irq.actU = t.irq.actU
  bank : h.status.rb = t.status.rb
  noException : h.status.ae = false
  pointers : h.readReg regSp = t.readReg regSp ∧ h.cpu.userSp = t.cpu.userSp
  frame : ∀ a k, k < s.frameSize → inWord (frameAddr sp k) a → h.byte a = t.byte a
  sound : h.Inv
  undisturbed : h.undisturbed

/-- 43_interrupts R263: a regular entry and its return, with the frame kept between them, restore every register the
entry pushed, both stack pointers, the status word and the active bitmap, and control goes to the `pc` of the poll. The
premise on `ACT_U` is the bitmap's invariant, which only a write of `IRQ_ACT` can break (R238). -/
def Obligations.RegularReturnUndoesItsEntry : Prop :=
  ∀ (s t h : State) (n : Nat) (pc sp : Word), s.Inv → s.undisturbed → takes s n →
    (s.irq.act = 0 → s.irq.actU = false) →
    ¬((s.source n).prio = 0 ∧ s.cfg.firqPresent = true) →
    ¬(s.status.u = true ∧ s.irq.ctrl.u = true ∧ s.irq.act ≠ 0) →
    sp = (if s.status.u && !s.irq.ctrl.u then s.cpu.userSp else s.readReg regSp) →
    exec (.irqPoll pc) s = .next t → HandlerKeptTheFrame s t h sp →
    ∃ r, exec .ret h = .next r ∧ r.status = s.status ∧ r.irq.act = s.irq.act ∧ r.out.nextPc = some pc ∧
      r.readReg regSp = s.readReg regSp ∧ r.cpu.userSp = s.cpu.userSp ∧
      (∀ k < 2 * s.irq.ctrl.nr.toNat, r.readReg (Fin.ofNat 32 k) = s.readReg (Fin.ofNat 32 k)) ∧
      (s.irq.ctrl.b = true → r.readReg regBlink = s.readReg regBlink) ∧
      (s.cfg.hasLoop = true → s.irq.ctrl.l = true →
        r.cpu.lpCount = s.cpu.lpCount ∧ r.cpu.lpStart = s.cpu.lpStart ∧ r.cpu.lpEnd = s.cpu.lpEnd) ∧
      (s.cfg.codeDensity = true → s.irq.ctrl.lp = true →
        r.cpu.eiBase = s.cpu.eiBase ∧ r.cpu.ldiBase = s.cpu.ldiBase ∧ r.cpu.jliBase = s.cpu.jliBase)

/-! ### Reset -/

/-- 70 R320, R322, R323: what RESET sets, in every state and whatever the draws: the engines off, every entry and region
invalid, the victim pointers 0, the interrupt controller cleared and re-enabled, kernel mode with interrupts off, `IVB`
at `IVB_RESET`, the downstream cache flushed, control at entry 0 of the table; the inputs and the mark stay, and so do
`ECR` and `EFA`, where the model takes R320's sentence over R321's table (DEDUCED) [log 7]. -/
def Obligations.ResetSetsWhatTheSpecNames : Prop :=
  ∀ s : State, s.cfg.wf = true → ∃ t, exec .reset s = .next t ∧
    (∀ st way, (t.entry st way).v = false) ∧ (∀ st, t.victim st = 0) ∧ t.tlb.pid.t = false ∧
    (∀ i < s.cfg.mpuRegions, (t.region i).valid = false) ∧ t.mpu.en = false ∧
    t.irq.act = 0 ∧ t.irq.actU = false ∧ t.irq.hint = 0 ∧
    (∀ n < s.cfg.numIrq, (t.source n).plat = false ∧ (t.source n).trig = false ∧
      (t.source n).prio.toNat = s.cfg.numPrio - 1 ∧ (t.source n).en = decide (n < s.cfg.numHwIrq)) ∧
    t.irq.ctrl = { nr := 0, b := false, l := false, u := false, lp := false } ∧
    t.status = Status.zero ∧
    t.exc.ivb = s.cfg.ivbReset ∧ t.exc.ecr = s.exc.ecr ∧ t.exc.efa = s.exc.efa ∧
    t.irq.lines = s.irq.lines ∧ t.irq.irqReq = s.irq.irqReq ∧ t.refused = s.refused ∧
    t.cfg = s.cfg ∧ t.inbox = s.inbox ∧ t.mem = s.agentsMove.mem ∧ t.otherAgents = s.agentsMove.otherAgents ∧
    t.out = { Outputs.none with flushOut := [.all], nextPc := some (s.agentsMove.word s.cfg.ivbReset) }

/-! ### Registers and memory -/

/-- 10_state R21 to R24: a register reads back what was written to it in the bank selected, no other register changes in
either bank, `SP`, `ILINK` and `BLINK` are the same in both, and the stack-pointer switch is undone by a second
one. -/
def Obligations.BankSelectorAndStackSwitch : Prop :=
  ∀ (s : State) (i : Fin 32) (v : Word), s.cfg.wf = true →
    (s.writeReg i v).readReg i = v ∧
    (∀ j ≠ i, ∀ rb, (s.writeReg i v).regInBank rb j = s.regInBank rb j) ∧
    (s.cfg.numBanks = 2 → s.cfg.bankedSet.getLsbD i.val = true →
      (s.writeReg i v).regInBank (!s.status.rb) i = s.regInBank (!s.status.rb) i) ∧
    (i ∈ [28, 29, 31] → ∀ rb, s.regInBank rb i = s.readReg i) ∧
    StackSwitched true s s.switchSp ∧ s.switchSp.switchSp = s

/-- 20_memory R72 to R74: a word written at any address, aligned or not, reads back; its bytes lie in the order of
`ENDIAN`, modulo 2^32; every other byte of memory stays, and the memory stays in its canonical form. The big-endian
order is the model's (DEDUCED) [log 17]. -/
def Obligations.PhysicalWordWritesAreExact : Prop :=
  ∀ (m : Memory) (en : Endian) (a x : Word), m.wf = true →
    (m.writeWord en a x).readWord en a = x ∧
    (∀ k < 4, (m.writeWord .little a x).read ((a.toNat + k) % 2 ^ 32) = x.extractLsb' (8 * k) 8) ∧
    (∀ b, (∀ k < 4, b ≠ (a.toNat + k) % 2 ^ 32) → (m.writeWord en a x).read b = m.read b) ∧
    (m.writeWord en a x).wf = true
end

