-- ==== Sys2Proof/Laws/Decode.lean ====
section
/-! SUPPORT. The auxiliary numbers of an implementation and the header word: what the decoder and the encoder rest on
(30_encoding R91, R97, R99). -/

namespace Sys2Proof

/-- A numbered list without repeats, looked up by number and then by name, gives the name back. -/
theorem find?_of_nodup {α β : Type} [DecidableEq α] [DecidableEq β] {l : List (α × β)}
    (h1 : (l.map (·.1)).Nodup) (h2 : (l.map (·.2)).Nodup) {r : β} (hr : r ∈ l.map (·.2)) :
    ∃ a, (l.find? fun e => e.2 == r) = some (a, r) ∧ (l.find? fun e => e.1 == a) = some (a, r) := by
  induction l with
  | nil => simp at hr
  | cons e l ih =>
    obtain ⟨b, q⟩ := e
    simp only [List.map_cons, List.nodup_cons] at h1 h2
    by_cases hq : q = r
    · subst hq
      exact ⟨b, by simp, by simp⟩
    · have hr' : r ∈ l.map (·.2) := by
        simp only [List.map_cons, List.mem_cons] at hr
        rcases hr with hr | hr
        · exact absurd hr.symm hq
        · exact hr
      obtain ⟨a, ha, hb⟩ := ih h1.2 h2.2 hr'
      have hab : b ≠ a := by
        rintro rfl
        exact h1.1 (List.mem_map.2 ⟨(b, r), List.mem_of_find?_eq_some hb, rfl⟩)
      exact ⟨a, by simp [hq, ha], by simp [hab, hb]⟩

/-- A register the implementation numbers is the register its number names (30_encoding R99). -/
theorem Config.auxReg?_auxId {cfg : Config} (h : cfg.auxIdsWf = true) {r : AuxReg}
    (hr : r ∈ cfg.auxIds.map (·.2)) : cfg.auxReg? (cfg.auxId r) = some r := by
  simp only [Config.auxIdsWf, Bool.and_eq_true, decide_eq_true_eq] at h
  obtain ⟨a, ha, hb⟩ := find?_of_nodup h.1.1 h.1.2 hr
  unfold Config.auxId Config.auxReg?
  simp [ha, hb]

/-- Every register every implementation numbers has a number (30_encoding R99). -/
theorem Config.mem_of_numbered {cfg : Config} (h : cfg.auxIdsWf = true) {r : AuxReg}
    (hr : r ∈ Config.numberedRegs) : r ∈ cfg.auxIds.map (·.2) := by
  simp only [Config.auxIdsWf, Bool.and_eq_true, List.all_eq_true, decide_eq_true_eq] at h
  exact h.2 r hr

/-- The numbers of an implementation are distinct (00_scope R4, 30_encoding R99). -/
theorem Config.wf_auxIds {cfg : Config} (h : cfg.wf = true) : cfg.auxIdsWf = true := by
  simp only [Config.wf, Bool.and_eq_true] at h
  exact h.2

/-- `TLBCOMMAND` is the register its number names, in every implementation. -/
theorem Config.auxReg?_tlbcommand {cfg : Config} (h : cfg.wf = true) :
    cfg.auxReg? (cfg.auxId .tlbcommand) = some .tlbcommand :=
  Config.auxReg?_auxId (Config.wf_auxIds h) (Config.mem_of_numbered (Config.wf_auxIds h) (by decide))

/-- The fields of a header word are those it was made of (30_encoding R91). -/
theorem headerOf_fields (op : BitVec 4) (kind : BitVec 2) :
    (headerOf op kind).extractLsb' 0 4 = op ∧ (headerOf op kind).extractLsb' 4 2 = kind ∧
      (headerOf op kind).extractLsb' 6 26 = 0 := by
  revert op kind
  decide

/-- A command's code names that command (30_encoding R113). -/
theorem tlbCmd?_code (c : TlbCmd) : tlbCmd? c.code = some c := by
  cases c <;> rfl

/-- Only a command's code names it (30_encoding R113). -/
theorem tlbCmd?_eq_some {w : Word} {c : TlbCmd} : tlbCmd? w = some c ↔ w = c.code := by
  refine ⟨fun h => ?_, fun h => h ▸ tlbCmd?_code c⟩
  apply BitVec.eq_of_toNat_eq
  unfold tlbCmd? at h
  split at h <;> simp at h <;> subst h <;> simpa [TlbCmd.code]

end Sys2Proof
end

