-- ==== Sys2Proof/Laws/State.lean ====
section
/-! SUPPORT. What each named update of the state leaves alone and what it sets: one lemma for each field of `State`, so
that no proof unfolds a record update. -/

namespace Sys2Proof.Machine

/-! ### Updates of the outputs -/

@[simp] theorem State.clearOut_cfg (s : State) : (s.clearOut).cfg = s.cfg := rfl
@[simp] theorem State.clearOut_cpu (s : State) : (s.clearOut).cpu = s.cpu := rfl
@[simp] theorem State.clearOut_status (s : State) : (s.clearOut).status = s.status := rfl
@[simp] theorem State.clearOut_exc (s : State) : (s.clearOut).exc = s.exc := rfl
@[simp] theorem State.clearOut_tlb (s : State) : (s.clearOut).tlb = s.tlb := rfl
@[simp] theorem State.clearOut_mpu (s : State) : (s.clearOut).mpu = s.mpu := rfl
@[simp] theorem State.clearOut_irq (s : State) : (s.clearOut).irq = s.irq := rfl
@[simp] theorem State.clearOut_mem (s : State) : (s.clearOut).mem = s.mem := rfl
@[simp] theorem State.clearOut_otherAgents (s : State) : (s.clearOut).otherAgents = s.otherAgents := rfl
@[simp] theorem State.clearOut_inbox (s : State) : (s.clearOut).inbox = s.inbox := rfl
@[simp] theorem State.clearOut_refused (s : State) : (s.clearOut).refused = s.refused := rfl
@[simp] theorem State.clearOut_resets (s : State) : (s.clearOut).resets = s.resets := rfl

@[simp] theorem State.flush_cfg (s : State) (f : Flush) : (s.flush f).cfg = s.cfg := rfl
@[simp] theorem State.flush_cpu (s : State) (f : Flush) : (s.flush f).cpu = s.cpu := rfl
@[simp] theorem State.flush_status (s : State) (f : Flush) : (s.flush f).status = s.status := rfl
@[simp] theorem State.flush_exc (s : State) (f : Flush) : (s.flush f).exc = s.exc := rfl
@[simp] theorem State.flush_tlb (s : State) (f : Flush) : (s.flush f).tlb = s.tlb := rfl
@[simp] theorem State.flush_mpu (s : State) (f : Flush) : (s.flush f).mpu = s.mpu := rfl
@[simp] theorem State.flush_irq (s : State) (f : Flush) : (s.flush f).irq = s.irq := rfl
@[simp] theorem State.flush_mem (s : State) (f : Flush) : (s.flush f).mem = s.mem := rfl
@[simp] theorem State.flush_otherAgents (s : State) (f : Flush) : (s.flush f).otherAgents = s.otherAgents := rfl
@[simp] theorem State.flush_inbox (s : State) (f : Flush) : (s.flush f).inbox = s.inbox := rfl
@[simp] theorem State.flush_refused (s : State) (f : Flush) : (s.flush f).refused = s.refused := rfl
@[simp] theorem State.flush_resets (s : State) (f : Flush) : (s.flush f).resets = s.resets := rfl

@[simp] theorem State.answer_cfg (s : State) (w : Word) : (s.answer w).cfg = s.cfg := rfl
@[simp] theorem State.answer_cpu (s : State) (w : Word) : (s.answer w).cpu = s.cpu := rfl
@[simp] theorem State.answer_status (s : State) (w : Word) : (s.answer w).status = s.status := rfl
@[simp] theorem State.answer_exc (s : State) (w : Word) : (s.answer w).exc = s.exc := rfl
@[simp] theorem State.answer_tlb (s : State) (w : Word) : (s.answer w).tlb = s.tlb := rfl
@[simp] theorem State.answer_mpu (s : State) (w : Word) : (s.answer w).mpu = s.mpu := rfl
@[simp] theorem State.answer_irq (s : State) (w : Word) : (s.answer w).irq = s.irq := rfl
@[simp] theorem State.answer_mem (s : State) (w : Word) : (s.answer w).mem = s.mem := rfl
@[simp] theorem State.answer_otherAgents (s : State) (w : Word) : (s.answer w).otherAgents = s.otherAgents := rfl
@[simp] theorem State.answer_inbox (s : State) (w : Word) : (s.answer w).inbox = s.inbox := rfl
@[simp] theorem State.answer_refused (s : State) (w : Word) : (s.answer w).refused = s.refused := rfl
@[simp] theorem State.answer_resets (s : State) (w : Word) : (s.answer w).resets = s.resets := rfl

@[simp] theorem State.grant_cfg (s : State) (a : Word) (p : BitVec 3) (c g : Bool) : (s.grant a p c g).cfg = s.cfg := rfl
@[simp] theorem State.grant_cpu (s : State) (a : Word) (p : BitVec 3) (c g : Bool) : (s.grant a p c g).cpu = s.cpu := rfl
@[simp] theorem State.grant_status (s : State) (a : Word) (p : BitVec 3) (c g : Bool) : (s.grant a p c g).status = s.status := rfl
@[simp] theorem State.grant_exc (s : State) (a : Word) (p : BitVec 3) (c g : Bool) : (s.grant a p c g).exc = s.exc := rfl
@[simp] theorem State.grant_tlb (s : State) (a : Word) (p : BitVec 3) (c g : Bool) : (s.grant a p c g).tlb = s.tlb := rfl
@[simp] theorem State.grant_mpu (s : State) (a : Word) (p : BitVec 3) (c g : Bool) : (s.grant a p c g).mpu = s.mpu := rfl
@[simp] theorem State.grant_irq (s : State) (a : Word) (p : BitVec 3) (c g : Bool) : (s.grant a p c g).irq = s.irq := rfl
@[simp] theorem State.grant_mem (s : State) (a : Word) (p : BitVec 3) (c g : Bool) : (s.grant a p c g).mem = s.mem := rfl
@[simp] theorem State.grant_otherAgents (s : State) (a : Word) (p : BitVec 3) (c g : Bool) : (s.grant a p c g).otherAgents = s.otherAgents := rfl
@[simp] theorem State.grant_inbox (s : State) (a : Word) (p : BitVec 3) (c g : Bool) : (s.grant a p c g).inbox = s.inbox := rfl
@[simp] theorem State.grant_refused (s : State) (a : Word) (p : BitVec 3) (c g : Bool) : (s.grant a p c g).refused = s.refused := rfl
@[simp] theorem State.grant_resets (s : State) (a : Word) (p : BitVec 3) (c g : Bool) : (s.grant a p c g).resets = s.resets := rfl

@[simp] theorem State.jump_cfg (s : State) (a : Word) : (s.jump a).cfg = s.cfg := rfl
@[simp] theorem State.jump_cpu (s : State) (a : Word) : (s.jump a).cpu = s.cpu := rfl
@[simp] theorem State.jump_status (s : State) (a : Word) : (s.jump a).status = s.status := rfl
@[simp] theorem State.jump_exc (s : State) (a : Word) : (s.jump a).exc = s.exc := rfl
@[simp] theorem State.jump_tlb (s : State) (a : Word) : (s.jump a).tlb = s.tlb := rfl
@[simp] theorem State.jump_mpu (s : State) (a : Word) : (s.jump a).mpu = s.mpu := rfl
@[simp] theorem State.jump_irq (s : State) (a : Word) : (s.jump a).irq = s.irq := rfl
@[simp] theorem State.jump_mem (s : State) (a : Word) : (s.jump a).mem = s.mem := rfl
@[simp] theorem State.jump_otherAgents (s : State) (a : Word) : (s.jump a).otherAgents = s.otherAgents := rfl
@[simp] theorem State.jump_inbox (s : State) (a : Word) : (s.jump a).inbox = s.inbox := rfl
@[simp] theorem State.jump_refused (s : State) (a : Word) : (s.jump a).refused = s.refused := rfl
@[simp] theorem State.jump_resets (s : State) (a : Word) : (s.jump a).resets = s.resets := rfl

@[simp] theorem State.describeFault_cfg (s : State) (v c p : Byte) (a : Word) : (s.describeFault v c p a).cfg = s.cfg := rfl
@[simp] theorem State.describeFault_cpu (s : State) (v c p : Byte) (a : Word) : (s.describeFault v c p a).cpu = s.cpu := rfl
@[simp] theorem State.describeFault_status (s : State) (v c p : Byte) (a : Word) : (s.describeFault v c p a).status = s.status := rfl
@[simp] theorem State.describeFault_exc (s : State) (v c p : Byte) (a : Word) : (s.describeFault v c p a).exc = s.exc := rfl
@[simp] theorem State.describeFault_tlb (s : State) (v c p : Byte) (a : Word) : (s.describeFault v c p a).tlb = s.tlb := rfl
@[simp] theorem State.describeFault_mpu (s : State) (v c p : Byte) (a : Word) : (s.describeFault v c p a).mpu = s.mpu := rfl
@[simp] theorem State.describeFault_irq (s : State) (v c p : Byte) (a : Word) : (s.describeFault v c p a).irq = s.irq := rfl
@[simp] theorem State.describeFault_mem (s : State) (v c p : Byte) (a : Word) : (s.describeFault v c p a).mem = s.mem := rfl
@[simp] theorem State.describeFault_otherAgents (s : State) (v c p : Byte) (a : Word) : (s.describeFault v c p a).otherAgents = s.otherAgents := rfl
@[simp] theorem State.describeFault_inbox (s : State) (v c p : Byte) (a : Word) : (s.describeFault v c p a).inbox = s.inbox := rfl
@[simp] theorem State.describeFault_refused (s : State) (v c p : Byte) (a : Word) : (s.describeFault v c p a).refused = s.refused := rfl
@[simp] theorem State.describeFault_resets (s : State) (v c p : Byte) (a : Word) : (s.describeFault v c p a).resets = s.resets := rfl

@[simp] theorem State.clearOut_out (s : State) : s.clearOut.out = Outputs.none := rfl
@[simp] theorem State.flush_out (s : State) (f : Flush) :
    (s.flush f).out = { s.out with flushOut := s.out.flushOut ++ [f] } := rfl
@[simp] theorem State.answer_out (s : State) (w : Word) : (s.answer w).out = { s.out with rdata := some w } := rfl
@[simp] theorem State.grant_out (s : State) (a : Word) (p : BitVec 3) (c g : Bool) :
    (s.grant a p c g).out =
      { s.out with paddr := some a, permOut := some p, cacheable := some c, pageGranular := some g } := rfl
@[simp] theorem State.jump_out (s : State) (a : Word) : (s.jump a).out = { s.out with nextPc := some a } := rfl
@[simp] theorem State.describeFault_out (s : State) (v c p : Byte) (a : Word) :
    (s.describeFault v c p a).out = { s.out with fault := some { vector := v, cause := c, param := p, faddr := a } } :=
  rfl

/-! ### Refusal -/

@[simp] theorem State.refuse_cfg (s : State) (r : RefuseReason) : (s.refuse r).cfg = s.cfg := rfl
@[simp] theorem State.refuse_cpu (s : State) (r : RefuseReason) : (s.refuse r).cpu = s.cpu := rfl
@[simp] theorem State.refuse_status (s : State) (r : RefuseReason) : (s.refuse r).status = s.status := rfl
@[simp] theorem State.refuse_exc (s : State) (r : RefuseReason) : (s.refuse r).exc = s.exc := rfl
@[simp] theorem State.refuse_tlb (s : State) (r : RefuseReason) : (s.refuse r).tlb = s.tlb := rfl
@[simp] theorem State.refuse_mpu (s : State) (r : RefuseReason) : (s.refuse r).mpu = s.mpu := rfl
@[simp] theorem State.refuse_irq (s : State) (r : RefuseReason) : (s.refuse r).irq = s.irq := rfl
@[simp] theorem State.refuse_mem (s : State) (r : RefuseReason) : (s.refuse r).mem = s.mem := rfl
@[simp] theorem State.refuse_otherAgents (s : State) (r : RefuseReason) : (s.refuse r).otherAgents = s.otherAgents := rfl
@[simp] theorem State.refuse_inbox (s : State) (r : RefuseReason) : (s.refuse r).inbox = s.inbox := rfl
@[simp] theorem State.refuse_resets (s : State) (r : RefuseReason) : (s.refuse r).resets = s.resets := rfl
@[simp] theorem State.refuse_refused (s : State) (r : RefuseReason) : (s.refuse r).refused = true := rfl
@[simp] theorem State.refuse_out (s : State) (r : RefuseReason) :
    (s.refuse r).out = { Outputs.none with refusal := some r } := rfl

/-! ### The TLB -/

@[simp] theorem State.setEntry_cfg (s : State) (st : BitVec 8) (w : BitVec 2) (e : TlbEntry) : (s.setEntry st w e).cfg = s.cfg := rfl
@[simp] theorem State.setEntry_cpu (s : State) (st : BitVec 8) (w : BitVec 2) (e : TlbEntry) : (s.setEntry st w e).cpu = s.cpu := rfl
@[simp] theorem State.setEntry_status (s : State) (st : BitVec 8) (w : BitVec 2) (e : TlbEntry) : (s.setEntry st w e).status = s.status := rfl
@[simp] theorem State.setEntry_exc (s : State) (st : BitVec 8) (w : BitVec 2) (e : TlbEntry) : (s.setEntry st w e).exc = s.exc := rfl
@[simp] theorem State.setEntry_mpu (s : State) (st : BitVec 8) (w : BitVec 2) (e : TlbEntry) : (s.setEntry st w e).mpu = s.mpu := rfl
@[simp] theorem State.setEntry_irq (s : State) (st : BitVec 8) (w : BitVec 2) (e : TlbEntry) : (s.setEntry st w e).irq = s.irq := rfl
@[simp] theorem State.setEntry_mem (s : State) (st : BitVec 8) (w : BitVec 2) (e : TlbEntry) : (s.setEntry st w e).mem = s.mem := rfl
@[simp] theorem State.setEntry_otherAgents (s : State) (st : BitVec 8) (w : BitVec 2) (e : TlbEntry) : (s.setEntry st w e).otherAgents = s.otherAgents := rfl
@[simp] theorem State.setEntry_inbox (s : State) (st : BitVec 8) (w : BitVec 2) (e : TlbEntry) : (s.setEntry st w e).inbox = s.inbox := rfl
@[simp] theorem State.setEntry_out (s : State) (st : BitVec 8) (w : BitVec 2) (e : TlbEntry) : (s.setEntry st w e).out = s.out := rfl
@[simp] theorem State.setEntry_refused (s : State) (st : BitVec 8) (w : BitVec 2) (e : TlbEntry) : (s.setEntry st w e).refused = s.refused := rfl
@[simp] theorem State.setEntry_resets (s : State) (st : BitVec 8) (w : BitVec 2) (e : TlbEntry) : (s.setEntry st w e).resets = s.resets := rfl

@[simp] theorem State.invalidate_cfg (s : State) (st : BitVec 8) (w : BitVec 2) : (s.invalidate st w).cfg = s.cfg := rfl
@[simp] theorem State.invalidate_cpu (s : State) (st : BitVec 8) (w : BitVec 2) : (s.invalidate st w).cpu = s.cpu := rfl
@[simp] theorem State.invalidate_status (s : State) (st : BitVec 8) (w : BitVec 2) : (s.invalidate st w).status = s.status := rfl
@[simp] theorem State.invalidate_exc (s : State) (st : BitVec 8) (w : BitVec 2) : (s.invalidate st w).exc = s.exc := rfl
@[simp] theorem State.invalidate_mpu (s : State) (st : BitVec 8) (w : BitVec 2) : (s.invalidate st w).mpu = s.mpu := rfl
@[simp] theorem State.invalidate_irq (s : State) (st : BitVec 8) (w : BitVec 2) : (s.invalidate st w).irq = s.irq := rfl
@[simp] theorem State.invalidate_mem (s : State) (st : BitVec 8) (w : BitVec 2) : (s.invalidate st w).mem = s.mem := rfl
@[simp] theorem State.invalidate_otherAgents (s : State) (st : BitVec 8) (w : BitVec 2) : (s.invalidate st w).otherAgents = s.otherAgents := rfl
@[simp] theorem State.invalidate_inbox (s : State) (st : BitVec 8) (w : BitVec 2) : (s.invalidate st w).inbox = s.inbox := rfl
@[simp] theorem State.invalidate_out (s : State) (st : BitVec 8) (w : BitVec 2) : (s.invalidate st w).out = s.out := rfl
@[simp] theorem State.invalidate_refused (s : State) (st : BitVec 8) (w : BitVec 2) : (s.invalidate st w).refused = s.refused := rfl
@[simp] theorem State.invalidate_resets (s : State) (st : BitVec 8) (w : BitVec 2) : (s.invalidate st w).resets = s.resets := rfl

@[simp] theorem State.advanceVictim_cfg (s : State) (st : BitVec 8) : (s.advanceVictim st).cfg = s.cfg := rfl
@[simp] theorem State.advanceVictim_cpu (s : State) (st : BitVec 8) : (s.advanceVictim st).cpu = s.cpu := rfl
@[simp] theorem State.advanceVictim_status (s : State) (st : BitVec 8) : (s.advanceVictim st).status = s.status := rfl
@[simp] theorem State.advanceVictim_exc (s : State) (st : BitVec 8) : (s.advanceVictim st).exc = s.exc := rfl
@[simp] theorem State.advanceVictim_mpu (s : State) (st : BitVec 8) : (s.advanceVictim st).mpu = s.mpu := rfl
@[simp] theorem State.advanceVictim_irq (s : State) (st : BitVec 8) : (s.advanceVictim st).irq = s.irq := rfl
@[simp] theorem State.advanceVictim_mem (s : State) (st : BitVec 8) : (s.advanceVictim st).mem = s.mem := rfl
@[simp] theorem State.advanceVictim_otherAgents (s : State) (st : BitVec 8) : (s.advanceVictim st).otherAgents = s.otherAgents := rfl
@[simp] theorem State.advanceVictim_inbox (s : State) (st : BitVec 8) : (s.advanceVictim st).inbox = s.inbox := rfl
@[simp] theorem State.advanceVictim_out (s : State) (st : BitVec 8) : (s.advanceVictim st).out = s.out := rfl
@[simp] theorem State.advanceVictim_refused (s : State) (st : BitVec 8) : (s.advanceVictim st).refused = s.refused := rfl
@[simp] theorem State.advanceVictim_resets (s : State) (st : BitVec 8) : (s.advanceVictim st).resets = s.resets := rfl

@[simp] theorem State.setEvents_cfg (s : State) (e nv : Bool) : (s.setEvents e nv).cfg = s.cfg := rfl
@[simp] theorem State.setEvents_cpu (s : State) (e nv : Bool) : (s.setEvents e nv).cpu = s.cpu := rfl
@[simp] theorem State.setEvents_status (s : State) (e nv : Bool) : (s.setEvents e nv).status = s.status := rfl
@[simp] theorem State.setEvents_exc (s : State) (e nv : Bool) : (s.setEvents e nv).exc = s.exc := rfl
@[simp] theorem State.setEvents_mpu (s : State) (e nv : Bool) : (s.setEvents e nv).mpu = s.mpu := rfl
@[simp] theorem State.setEvents_irq (s : State) (e nv : Bool) : (s.setEvents e nv).irq = s.irq := rfl
@[simp] theorem State.setEvents_mem (s : State) (e nv : Bool) : (s.setEvents e nv).mem = s.mem := rfl
@[simp] theorem State.setEvents_otherAgents (s : State) (e nv : Bool) : (s.setEvents e nv).otherAgents = s.otherAgents := rfl
@[simp] theorem State.setEvents_inbox (s : State) (e nv : Bool) : (s.setEvents e nv).inbox = s.inbox := rfl
@[simp] theorem State.setEvents_out (s : State) (e nv : Bool) : (s.setEvents e nv).out = s.out := rfl
@[simp] theorem State.setEvents_refused (s : State) (e nv : Bool) : (s.setEvents e nv).refused = s.refused := rfl
@[simp] theorem State.setEvents_resets (s : State) (e nv : Bool) : (s.setEvents e nv).resets = s.resets := rfl

@[simp] theorem State.setIndex_cfg (s : State) (st : BitVec 8) (w : BitVec 2) : (s.setIndex st w).cfg = s.cfg := rfl
@[simp] theorem State.setIndex_cpu (s : State) (st : BitVec 8) (w : BitVec 2) : (s.setIndex st w).cpu = s.cpu := rfl
@[simp] theorem State.setIndex_status (s : State) (st : BitVec 8) (w : BitVec 2) : (s.setIndex st w).status = s.status := rfl
@[simp] theorem State.setIndex_exc (s : State) (st : BitVec 8) (w : BitVec 2) : (s.setIndex st w).exc = s.exc := rfl
@[simp] theorem State.setIndex_mpu (s : State) (st : BitVec 8) (w : BitVec 2) : (s.setIndex st w).mpu = s.mpu := rfl
@[simp] theorem State.setIndex_irq (s : State) (st : BitVec 8) (w : BitVec 2) : (s.setIndex st w).irq = s.irq := rfl
@[simp] theorem State.setIndex_mem (s : State) (st : BitVec 8) (w : BitVec 2) : (s.setIndex st w).mem = s.mem := rfl
@[simp] theorem State.setIndex_otherAgents (s : State) (st : BitVec 8) (w : BitVec 2) : (s.setIndex st w).otherAgents = s.otherAgents := rfl
@[simp] theorem State.setIndex_inbox (s : State) (st : BitVec 8) (w : BitVec 2) : (s.setIndex st w).inbox = s.inbox := rfl
@[simp] theorem State.setIndex_out (s : State) (st : BitVec 8) (w : BitVec 2) : (s.setIndex st w).out = s.out := rfl
@[simp] theorem State.setIndex_refused (s : State) (st : BitVec 8) (w : BitVec 2) : (s.setIndex st w).refused = s.refused := rfl
@[simp] theorem State.setIndex_resets (s : State) (st : BitVec 8) (w : BitVec 2) : (s.setIndex st w).resets = s.resets := rfl

@[simp] theorem State.insertAt_cfg (s : State) (st : BitVec 8) (w : BitVec 2) : (s.insertAt st w).cfg = s.cfg := rfl
@[simp] theorem State.insertAt_cpu (s : State) (st : BitVec 8) (w : BitVec 2) : (s.insertAt st w).cpu = s.cpu := rfl
@[simp] theorem State.insertAt_status (s : State) (st : BitVec 8) (w : BitVec 2) : (s.insertAt st w).status = s.status := rfl
@[simp] theorem State.insertAt_exc (s : State) (st : BitVec 8) (w : BitVec 2) : (s.insertAt st w).exc = s.exc := rfl
@[simp] theorem State.insertAt_mpu (s : State) (st : BitVec 8) (w : BitVec 2) : (s.insertAt st w).mpu = s.mpu := rfl
@[simp] theorem State.insertAt_irq (s : State) (st : BitVec 8) (w : BitVec 2) : (s.insertAt st w).irq = s.irq := rfl
@[simp] theorem State.insertAt_mem (s : State) (st : BitVec 8) (w : BitVec 2) : (s.insertAt st w).mem = s.mem := rfl
@[simp] theorem State.insertAt_otherAgents (s : State) (st : BitVec 8) (w : BitVec 2) : (s.insertAt st w).otherAgents = s.otherAgents := rfl
@[simp] theorem State.insertAt_inbox (s : State) (st : BitVec 8) (w : BitVec 2) : (s.insertAt st w).inbox = s.inbox := rfl
@[simp] theorem State.insertAt_out (s : State) (st : BitVec 8) (w : BitVec 2) : (s.insertAt st w).out = s.out := rfl
@[simp] theorem State.insertAt_refused (s : State) (st : BitVec 8) (w : BitVec 2) : (s.insertAt st w).refused = s.refused := rfl
@[simp] theorem State.insertAt_resets (s : State) (st : BitVec 8) (w : BitVec 2) : (s.insertAt st w).resets = s.resets := rfl

/-! ### The MPU -/

@[simp] theorem State.writeRegion_cfg (s : State) (i : Nat) (r : Region) : (s.writeRegion i r).cfg = s.cfg := rfl
@[simp] theorem State.writeRegion_cpu (s : State) (i : Nat) (r : Region) : (s.writeRegion i r).cpu = s.cpu := rfl
@[simp] theorem State.writeRegion_status (s : State) (i : Nat) (r : Region) : (s.writeRegion i r).status = s.status := rfl
@[simp] theorem State.writeRegion_exc (s : State) (i : Nat) (r : Region) : (s.writeRegion i r).exc = s.exc := rfl
@[simp] theorem State.writeRegion_tlb (s : State) (i : Nat) (r : Region) : (s.writeRegion i r).tlb = s.tlb := rfl
@[simp] theorem State.writeRegion_irq (s : State) (i : Nat) (r : Region) : (s.writeRegion i r).irq = s.irq := rfl
@[simp] theorem State.writeRegion_mem (s : State) (i : Nat) (r : Region) : (s.writeRegion i r).mem = s.mem := rfl
@[simp] theorem State.writeRegion_otherAgents (s : State) (i : Nat) (r : Region) : (s.writeRegion i r).otherAgents = s.otherAgents := rfl
@[simp] theorem State.writeRegion_inbox (s : State) (i : Nat) (r : Region) : (s.writeRegion i r).inbox = s.inbox := rfl
@[simp] theorem State.writeRegion_refused (s : State) (i : Nat) (r : Region) : (s.writeRegion i r).refused = s.refused := rfl
@[simp] theorem State.writeRegion_resets (s : State) (i : Nat) (r : Region) : (s.writeRegion i r).resets = s.resets := rfl

@[simp] theorem State.writeMpuEn_cfg (s : State) (w : Word) : (s.writeMpuEn w).cfg = s.cfg := rfl
@[simp] theorem State.writeMpuEn_cpu (s : State) (w : Word) : (s.writeMpuEn w).cpu = s.cpu := rfl
@[simp] theorem State.writeMpuEn_status (s : State) (w : Word) : (s.writeMpuEn w).status = s.status := rfl
@[simp] theorem State.writeMpuEn_exc (s : State) (w : Word) : (s.writeMpuEn w).exc = s.exc := rfl
@[simp] theorem State.writeMpuEn_tlb (s : State) (w : Word) : (s.writeMpuEn w).tlb = s.tlb := rfl
@[simp] theorem State.writeMpuEn_irq (s : State) (w : Word) : (s.writeMpuEn w).irq = s.irq := rfl
@[simp] theorem State.writeMpuEn_mem (s : State) (w : Word) : (s.writeMpuEn w).mem = s.mem := rfl
@[simp] theorem State.writeMpuEn_otherAgents (s : State) (w : Word) : (s.writeMpuEn w).otherAgents = s.otherAgents := rfl
@[simp] theorem State.writeMpuEn_inbox (s : State) (w : Word) : (s.writeMpuEn w).inbox = s.inbox := rfl
@[simp] theorem State.writeMpuEn_refused (s : State) (w : Word) : (s.writeMpuEn w).refused = s.refused := rfl
@[simp] theorem State.writeMpuEn_resets (s : State) (w : Word) : (s.writeMpuEn w).resets = s.resets := rfl

/-! ### The interrupt controller -/

@[simp] theorem State.setSource_cfg (s : State) (n : Nat) (e : IrqSource) : (s.setSource n e).cfg = s.cfg := rfl
@[simp] theorem State.setSource_cpu (s : State) (n : Nat) (e : IrqSource) : (s.setSource n e).cpu = s.cpu := rfl
@[simp] theorem State.setSource_status (s : State) (n : Nat) (e : IrqSource) : (s.setSource n e).status = s.status := rfl
@[simp] theorem State.setSource_exc (s : State) (n : Nat) (e : IrqSource) : (s.setSource n e).exc = s.exc := rfl
@[simp] theorem State.setSource_tlb (s : State) (n : Nat) (e : IrqSource) : (s.setSource n e).tlb = s.tlb := rfl
@[simp] theorem State.setSource_mpu (s : State) (n : Nat) (e : IrqSource) : (s.setSource n e).mpu = s.mpu := rfl
@[simp] theorem State.setSource_mem (s : State) (n : Nat) (e : IrqSource) : (s.setSource n e).mem = s.mem := rfl
@[simp] theorem State.setSource_otherAgents (s : State) (n : Nat) (e : IrqSource) : (s.setSource n e).otherAgents = s.otherAgents := rfl
@[simp] theorem State.setSource_inbox (s : State) (n : Nat) (e : IrqSource) : (s.setSource n e).inbox = s.inbox := rfl
@[simp] theorem State.setSource_out (s : State) (n : Nat) (e : IrqSource) : (s.setSource n e).out = s.out := rfl
@[simp] theorem State.setSource_refused (s : State) (n : Nat) (e : IrqSource) : (s.setSource n e).refused = s.refused := rfl
@[simp] theorem State.setSource_resets (s : State) (n : Nat) (e : IrqSource) : (s.setSource n e).resets = s.resets := rfl

@[simp] theorem State.setLine_cfg (s : State) (n : Nat) (b : Bool) : (s.setLine n b).cfg = s.cfg := rfl
@[simp] theorem State.setLine_cpu (s : State) (n : Nat) (b : Bool) : (s.setLine n b).cpu = s.cpu := rfl
@[simp] theorem State.setLine_status (s : State) (n : Nat) (b : Bool) : (s.setLine n b).status = s.status := rfl
@[simp] theorem State.setLine_exc (s : State) (n : Nat) (b : Bool) : (s.setLine n b).exc = s.exc := rfl
@[simp] theorem State.setLine_tlb (s : State) (n : Nat) (b : Bool) : (s.setLine n b).tlb = s.tlb := rfl
@[simp] theorem State.setLine_mpu (s : State) (n : Nat) (b : Bool) : (s.setLine n b).mpu = s.mpu := rfl
@[simp] theorem State.setLine_mem (s : State) (n : Nat) (b : Bool) : (s.setLine n b).mem = s.mem := rfl
@[simp] theorem State.setLine_otherAgents (s : State) (n : Nat) (b : Bool) : (s.setLine n b).otherAgents = s.otherAgents := rfl
@[simp] theorem State.setLine_inbox (s : State) (n : Nat) (b : Bool) : (s.setLine n b).inbox = s.inbox := rfl
@[simp] theorem State.setLine_out (s : State) (n : Nat) (b : Bool) : (s.setLine n b).out = s.out := rfl
@[simp] theorem State.setLine_refused (s : State) (n : Nat) (b : Bool) : (s.setLine n b).refused = s.refused := rfl
@[simp] theorem State.setLine_resets (s : State) (n : Nat) (b : Bool) : (s.setLine n b).resets = s.resets := rfl

@[simp] theorem State.clearLevel_cfg (s : State) (p : Nat) : (s.clearLevel p).cfg = s.cfg := rfl
@[simp] theorem State.clearLevel_cpu (s : State) (p : Nat) : (s.clearLevel p).cpu = s.cpu := rfl
@[simp] theorem State.clearLevel_status (s : State) (p : Nat) : (s.clearLevel p).status = s.status := rfl
@[simp] theorem State.clearLevel_exc (s : State) (p : Nat) : (s.clearLevel p).exc = s.exc := rfl
@[simp] theorem State.clearLevel_tlb (s : State) (p : Nat) : (s.clearLevel p).tlb = s.tlb := rfl
@[simp] theorem State.clearLevel_mpu (s : State) (p : Nat) : (s.clearLevel p).mpu = s.mpu := rfl
@[simp] theorem State.clearLevel_mem (s : State) (p : Nat) : (s.clearLevel p).mem = s.mem := rfl
@[simp] theorem State.clearLevel_otherAgents (s : State) (p : Nat) : (s.clearLevel p).otherAgents = s.otherAgents := rfl
@[simp] theorem State.clearLevel_inbox (s : State) (p : Nat) : (s.clearLevel p).inbox = s.inbox := rfl
@[simp] theorem State.clearLevel_out (s : State) (p : Nat) : (s.clearLevel p).out = s.out := rfl
@[simp] theorem State.clearLevel_refused (s : State) (p : Nat) : (s.clearLevel p).refused = s.refused := rfl
@[simp] theorem State.clearLevel_resets (s : State) (p : Nat) : (s.clearLevel p).resets = s.resets := rfl

/-! ### The inbox -/

@[simp] theorem State.take_cfg (s : State) : (s.take).cfg = s.cfg := rfl
@[simp] theorem State.take_cpu (s : State) : (s.take).cpu = s.cpu := rfl
@[simp] theorem State.take_status (s : State) : (s.take).status = s.status := rfl
@[simp] theorem State.take_exc (s : State) : (s.take).exc = s.exc := rfl
@[simp] theorem State.take_tlb (s : State) : (s.take).tlb = s.tlb := rfl
@[simp] theorem State.take_mpu (s : State) : (s.take).mpu = s.mpu := rfl
@[simp] theorem State.take_irq (s : State) : (s.take).irq = s.irq := rfl
@[simp] theorem State.take_mem (s : State) : (s.take).mem = s.mem := rfl
@[simp] theorem State.take_otherAgents (s : State) : (s.take).otherAgents = s.otherAgents := rfl
@[simp] theorem State.take_out (s : State) : (s.take).out = s.out := rfl
@[simp] theorem State.take_refused (s : State) : (s.take).refused = s.refused := rfl
@[simp] theorem State.take_resets (s : State) : (s.take).resets = s.resets := rfl

@[simp] theorem State.offer_cfg (s : State) (r : Request) : (s.offer r).cfg = s.cfg := rfl
@[simp] theorem State.offer_cpu (s : State) (r : Request) : (s.offer r).cpu = s.cpu := rfl
@[simp] theorem State.offer_status (s : State) (r : Request) : (s.offer r).status = s.status := rfl
@[simp] theorem State.offer_exc (s : State) (r : Request) : (s.offer r).exc = s.exc := rfl
@[simp] theorem State.offer_tlb (s : State) (r : Request) : (s.offer r).tlb = s.tlb := rfl
@[simp] theorem State.offer_mpu (s : State) (r : Request) : (s.offer r).mpu = s.mpu := rfl
@[simp] theorem State.offer_irq (s : State) (r : Request) : (s.offer r).irq = s.irq := rfl
@[simp] theorem State.offer_mem (s : State) (r : Request) : (s.offer r).mem = s.mem := rfl
@[simp] theorem State.offer_otherAgents (s : State) (r : Request) : (s.offer r).otherAgents = s.otherAgents := rfl
@[simp] theorem State.offer_out (s : State) (r : Request) : (s.offer r).out = s.out := rfl
@[simp] theorem State.offer_refused (s : State) (r : Request) : (s.offer r).refused = s.refused := rfl
@[simp] theorem State.offer_resets (s : State) (r : Request) : (s.offer r).resets = s.resets := rfl

@[simp] theorem State.take_inbox (s : State) : s.take.inbox = s.inbox.tail := rfl
@[simp] theorem State.offer_inbox (s : State) (r : Request) : (s.offer r).inbox = r :: s.inbox := rfl
@[simp] theorem State.take_offer (s : State) (r : Request) : (s.offer r).take = s := rfl

end Sys2Proof.Machine
end

