-- ==== Sys2Proof/Laws/Ops.lean ====
section
/-! SUPPORT. What the shared operations leave alone: accesses of memory, the general registers, pushes and pops, the
vector fetch, taking an exception and returning from one. -/

namespace Sys2Proof.Machine

/-! ### The general registers -/

@[simp] theorem State.writeReg_cfg (s : State) (i : Fin 32) (v : Word) : (s.writeReg i v).cfg = s.cfg := by
  unfold State.writeReg; split <;> [split <;> rfl; rfl]
@[simp] theorem State.writeReg_status (s : State) (i : Fin 32) (v : Word) : (s.writeReg i v).status = s.status := by
  unfold State.writeReg; split <;> [split <;> rfl; rfl]
@[simp] theorem State.writeReg_exc (s : State) (i : Fin 32) (v : Word) : (s.writeReg i v).exc = s.exc := by
  unfold State.writeReg; split <;> [split <;> rfl; rfl]
@[simp] theorem State.writeReg_tlb (s : State) (i : Fin 32) (v : Word) : (s.writeReg i v).tlb = s.tlb := by
  unfold State.writeReg; split <;> [split <;> rfl; rfl]
@[simp] theorem State.writeReg_mpu (s : State) (i : Fin 32) (v : Word) : (s.writeReg i v).mpu = s.mpu := by
  unfold State.writeReg; split <;> [split <;> rfl; rfl]
@[simp] theorem State.writeReg_irq (s : State) (i : Fin 32) (v : Word) : (s.writeReg i v).irq = s.irq := by
  unfold State.writeReg; split <;> [split <;> rfl; rfl]
@[simp] theorem State.writeReg_mem (s : State) (i : Fin 32) (v : Word) : (s.writeReg i v).mem = s.mem := by
  unfold State.writeReg; split <;> [split <;> rfl; rfl]
@[simp] theorem State.writeReg_otherAgents (s : State) (i : Fin 32) (v : Word) : (s.writeReg i v).otherAgents = s.otherAgents := by
  unfold State.writeReg; split <;> [split <;> rfl; rfl]
@[simp] theorem State.writeReg_inbox (s : State) (i : Fin 32) (v : Word) : (s.writeReg i v).inbox = s.inbox := by
  unfold State.writeReg; split <;> [split <;> rfl; rfl]
@[simp] theorem State.writeReg_out (s : State) (i : Fin 32) (v : Word) : (s.writeReg i v).out = s.out := by
  unfold State.writeReg; split <;> [split <;> rfl; rfl]
@[simp] theorem State.writeReg_refused (s : State) (i : Fin 32) (v : Word) : (s.writeReg i v).refused = s.refused := by
  unfold State.writeReg; split <;> [split <;> rfl; rfl]
@[simp] theorem State.writeReg_resets (s : State) (i : Fin 32) (v : Word) : (s.writeReg i v).resets = s.resets := by
  unfold State.writeReg; split <;> [split <;> rfl; rfl]

@[simp] theorem State.switchSp_cfg (s : State) : (s.switchSp).cfg = s.cfg := by simp [State.switchSp]
@[simp] theorem State.switchSp_status (s : State) : (s.switchSp).status = s.status := by simp [State.switchSp]
@[simp] theorem State.switchSp_exc (s : State) : (s.switchSp).exc = s.exc := by simp [State.switchSp]
@[simp] theorem State.switchSp_tlb (s : State) : (s.switchSp).tlb = s.tlb := by simp [State.switchSp]
@[simp] theorem State.switchSp_mpu (s : State) : (s.switchSp).mpu = s.mpu := by simp [State.switchSp]
@[simp] theorem State.switchSp_irq (s : State) : (s.switchSp).irq = s.irq := by simp [State.switchSp]
@[simp] theorem State.switchSp_mem (s : State) : (s.switchSp).mem = s.mem := by simp [State.switchSp]
@[simp] theorem State.switchSp_otherAgents (s : State) : (s.switchSp).otherAgents = s.otherAgents := by simp [State.switchSp]
@[simp] theorem State.switchSp_inbox (s : State) : (s.switchSp).inbox = s.inbox := by simp [State.switchSp]
@[simp] theorem State.switchSp_out (s : State) : (s.switchSp).out = s.out := by simp [State.switchSp]
@[simp] theorem State.switchSp_refused (s : State) : (s.switchSp).refused = s.refused := by simp [State.switchSp]
@[simp] theorem State.switchSp_resets (s : State) : (s.switchSp).resets = s.resets := by simp [State.switchSp]

@[simp] theorem State.switchSpIf_cfg (s : State) (b : Bool) : (s.switchSpIf b).cfg = s.cfg := by
  cases b <;> simp [State.switchSpIf]
@[simp] theorem State.switchSpIf_status (s : State) (b : Bool) : (s.switchSpIf b).status = s.status := by
  cases b <;> simp [State.switchSpIf]
@[simp] theorem State.switchSpIf_exc (s : State) (b : Bool) : (s.switchSpIf b).exc = s.exc := by
  cases b <;> simp [State.switchSpIf]
@[simp] theorem State.switchSpIf_tlb (s : State) (b : Bool) : (s.switchSpIf b).tlb = s.tlb := by
  cases b <;> simp [State.switchSpIf]
@[simp] theorem State.switchSpIf_mpu (s : State) (b : Bool) : (s.switchSpIf b).mpu = s.mpu := by
  cases b <;> simp [State.switchSpIf]
@[simp] theorem State.switchSpIf_irq (s : State) (b : Bool) : (s.switchSpIf b).irq = s.irq := by
  cases b <;> simp [State.switchSpIf]
@[simp] theorem State.switchSpIf_mem (s : State) (b : Bool) : (s.switchSpIf b).mem = s.mem := by
  cases b <;> simp [State.switchSpIf]
@[simp] theorem State.switchSpIf_otherAgents (s : State) (b : Bool) : (s.switchSpIf b).otherAgents = s.otherAgents := by
  cases b <;> simp [State.switchSpIf]
@[simp] theorem State.switchSpIf_inbox (s : State) (b : Bool) : (s.switchSpIf b).inbox = s.inbox := by
  cases b <;> simp [State.switchSpIf]
@[simp] theorem State.switchSpIf_out (s : State) (b : Bool) : (s.switchSpIf b).out = s.out := by
  cases b <;> simp [State.switchSpIf]
@[simp] theorem State.switchSpIf_refused (s : State) (b : Bool) : (s.switchSpIf b).refused = s.refused := by
  cases b <;> simp [State.switchSpIf]
@[simp] theorem State.switchSpIf_resets (s : State) (b : Bool) : (s.switchSpIf b).resets = s.resets := by
  cases b <;> simp [State.switchSpIf]

@[simp] theorem State.switchSpIf_false (s : State) : s.switchSpIf false = s := rfl
@[simp] theorem State.switchSpIf_true (s : State) : s.switchSpIf true = s.switchSp := rfl

/-! ### Accesses of memory -/

@[simp] theorem State.agentsMove_cfg (s : State) : (s.agentsMove).cfg = s.cfg := by
  unfold State.agentsMove; split <;> rfl
@[simp] theorem State.agentsMove_cpu (s : State) : (s.agentsMove).cpu = s.cpu := by
  unfold State.agentsMove; split <;> rfl
@[simp] theorem State.agentsMove_status (s : State) : (s.agentsMove).status = s.status := by
  unfold State.agentsMove; split <;> rfl
@[simp] theorem State.agentsMove_exc (s : State) : (s.agentsMove).exc = s.exc := by
  unfold State.agentsMove; split <;> rfl
@[simp] theorem State.agentsMove_tlb (s : State) : (s.agentsMove).tlb = s.tlb := by
  unfold State.agentsMove; split <;> rfl
@[simp] theorem State.agentsMove_mpu (s : State) : (s.agentsMove).mpu = s.mpu := by
  unfold State.agentsMove; split <;> rfl
@[simp] theorem State.agentsMove_irq (s : State) : (s.agentsMove).irq = s.irq := by
  unfold State.agentsMove; split <;> rfl
@[simp] theorem State.agentsMove_inbox (s : State) : (s.agentsMove).inbox = s.inbox := by
  unfold State.agentsMove; split <;> rfl
@[simp] theorem State.agentsMove_out (s : State) : (s.agentsMove).out = s.out := by
  unfold State.agentsMove; split <;> rfl
@[simp] theorem State.agentsMove_refused (s : State) : (s.agentsMove).refused = s.refused := by
  unfold State.agentsMove; split <;> rfl
@[simp] theorem State.agentsMove_resets (s : State) : (s.agentsMove).resets = s.resets := by
  unfold State.agentsMove; split <;> rfl

theorem State.agentsMove_undisturbed {s : State} (h : s.undisturbed) : s.agentsMove = s := by
  unfold State.agentsMove; rw [h]

@[simp] theorem State.memWrite_cfg (s : State) (a x : Word) : (s.memWrite a x).cfg = s.cfg := by simp [State.memWrite]
@[simp] theorem State.memWrite_cpu (s : State) (a x : Word) : (s.memWrite a x).cpu = s.cpu := by simp [State.memWrite]
@[simp] theorem State.memWrite_status (s : State) (a x : Word) : (s.memWrite a x).status = s.status := by simp [State.memWrite]
@[simp] theorem State.memWrite_exc (s : State) (a x : Word) : (s.memWrite a x).exc = s.exc := by simp [State.memWrite]
@[simp] theorem State.memWrite_tlb (s : State) (a x : Word) : (s.memWrite a x).tlb = s.tlb := by simp [State.memWrite]
@[simp] theorem State.memWrite_mpu (s : State) (a x : Word) : (s.memWrite a x).mpu = s.mpu := by simp [State.memWrite]
@[simp] theorem State.memWrite_irq (s : State) (a x : Word) : (s.memWrite a x).irq = s.irq := by simp [State.memWrite]
@[simp] theorem State.memWrite_inbox (s : State) (a x : Word) : (s.memWrite a x).inbox = s.inbox := by simp [State.memWrite]
@[simp] theorem State.memWrite_out (s : State) (a x : Word) : (s.memWrite a x).out = s.out := by simp [State.memWrite]
@[simp] theorem State.memWrite_refused (s : State) (a x : Word) : (s.memWrite a x).refused = s.refused := by simp [State.memWrite]
@[simp] theorem State.memWrite_resets (s : State) (a x : Word) : (s.memWrite a x).resets = s.resets := by simp [State.memWrite]

@[simp] theorem State.memWrite_otherAgents (s : State) (a x : Word) :
    (s.memWrite a x).otherAgents = s.agentsMove.otherAgents := rfl
@[simp] theorem State.memWrite_mem (s : State) (a x : Word) :
    (s.memWrite a x).mem = s.agentsMove.mem.writeWord s.cfg.endian a x := by simp [State.memWrite]

/-! ### Pushes and pops -/

@[simp] theorem State.push_cfg (s : State) (w : Word) : (s.push w).cfg = s.cfg := by simp [State.push]
@[simp] theorem State.push_status (s : State) (w : Word) : (s.push w).status = s.status := by simp [State.push]
@[simp] theorem State.push_exc (s : State) (w : Word) : (s.push w).exc = s.exc := by simp [State.push]
@[simp] theorem State.push_tlb (s : State) (w : Word) : (s.push w).tlb = s.tlb := by simp [State.push]
@[simp] theorem State.push_mpu (s : State) (w : Word) : (s.push w).mpu = s.mpu := by simp [State.push]
@[simp] theorem State.push_irq (s : State) (w : Word) : (s.push w).irq = s.irq := by simp [State.push]
@[simp] theorem State.push_inbox (s : State) (w : Word) : (s.push w).inbox = s.inbox := by simp [State.push]
@[simp] theorem State.push_out (s : State) (w : Word) : (s.push w).out = s.out := by simp [State.push]
@[simp] theorem State.push_refused (s : State) (w : Word) : (s.push w).refused = s.refused := by simp [State.push]
@[simp] theorem State.push_resets (s : State) (w : Word) : (s.push w).resets = s.resets := by simp [State.push]

@[simp] theorem State.popped_cfg (s : State) : (s.popped).cfg = s.cfg := by simp [State.popped]
@[simp] theorem State.popped_status (s : State) : (s.popped).status = s.status := by simp [State.popped]
@[simp] theorem State.popped_exc (s : State) : (s.popped).exc = s.exc := by simp [State.popped]
@[simp] theorem State.popped_tlb (s : State) : (s.popped).tlb = s.tlb := by simp [State.popped]
@[simp] theorem State.popped_mpu (s : State) : (s.popped).mpu = s.mpu := by simp [State.popped]
@[simp] theorem State.popped_irq (s : State) : (s.popped).irq = s.irq := by simp [State.popped]
@[simp] theorem State.popped_inbox (s : State) : (s.popped).inbox = s.inbox := by simp [State.popped]
@[simp] theorem State.popped_out (s : State) : (s.popped).out = s.out := by simp [State.popped]
@[simp] theorem State.popped_refused (s : State) : (s.popped).refused = s.refused := by simp [State.popped]
@[simp] theorem State.popped_resets (s : State) : (s.popped).resets = s.resets := by simp [State.popped]

@[simp] theorem State.popReg_cfg (s : State) (i : Fin 32) : (s.popReg i).cfg = s.cfg := by simp [State.popReg]
@[simp] theorem State.popReg_status (s : State) (i : Fin 32) : (s.popReg i).status = s.status := by simp [State.popReg]
@[simp] theorem State.popReg_exc (s : State) (i : Fin 32) : (s.popReg i).exc = s.exc := by simp [State.popReg]
@[simp] theorem State.popReg_tlb (s : State) (i : Fin 32) : (s.popReg i).tlb = s.tlb := by simp [State.popReg]
@[simp] theorem State.popReg_mpu (s : State) (i : Fin 32) : (s.popReg i).mpu = s.mpu := by simp [State.popReg]
@[simp] theorem State.popReg_irq (s : State) (i : Fin 32) : (s.popReg i).irq = s.irq := by simp [State.popReg]
@[simp] theorem State.popReg_inbox (s : State) (i : Fin 32) : (s.popReg i).inbox = s.inbox := by simp [State.popReg]
@[simp] theorem State.popReg_out (s : State) (i : Fin 32) : (s.popReg i).out = s.out := by simp [State.popReg]
@[simp] theorem State.popReg_refused (s : State) (i : Fin 32) : (s.popReg i).refused = s.refused := by simp [State.popReg]
@[simp] theorem State.popReg_resets (s : State) (i : Fin 32) : (s.popReg i).resets = s.resets := by simp [State.popReg]

/-- A field that no push changes is not changed by a fold of pushes. -/
theorem foldl_push_field {α β : Type} (f : State → α) (hf : ∀ s w, f (State.push s w) = f s) (g : State → β → Word)
    (l : List β) (s : State) : f (l.foldl (fun s b => s.push (g s b)) s) = f s := by
  induction l generalizing s with
  | nil => rfl
  | cons b l ih => rw [List.foldl_cons, ih, hf]

/-- A field that no pop into a register changes is not changed by a fold of such pops. -/
theorem foldl_popReg_field {α β : Type} (f : State → α) (hf : ∀ s i, f (State.popReg s i) = f s) (g : β → Fin 32)
    (l : List β) (s : State) : f (l.foldl (fun s b => s.popReg (g b)) s) = f s := by
  induction l generalizing s with
  | nil => rfl
  | cons b l ih => rw [List.foldl_cons, ih, hf]

@[simp] theorem State.pushRegs_cfg (s : State) (n : Nat) : (s.pushRegs n).cfg = s.cfg :=
  foldl_push_field (·.cfg) (by simp) (fun s k => s.readReg (Fin.ofNat 32 k)) _ s
@[simp] theorem State.pushRegs_status (s : State) (n : Nat) : (s.pushRegs n).status = s.status :=
  foldl_push_field (·.status) (by simp) (fun s k => s.readReg (Fin.ofNat 32 k)) _ s
@[simp] theorem State.pushRegs_exc (s : State) (n : Nat) : (s.pushRegs n).exc = s.exc :=
  foldl_push_field (·.exc) (by simp) (fun s k => s.readReg (Fin.ofNat 32 k)) _ s
@[simp] theorem State.pushRegs_tlb (s : State) (n : Nat) : (s.pushRegs n).tlb = s.tlb :=
  foldl_push_field (·.tlb) (by simp) (fun s k => s.readReg (Fin.ofNat 32 k)) _ s
@[simp] theorem State.pushRegs_mpu (s : State) (n : Nat) : (s.pushRegs n).mpu = s.mpu :=
  foldl_push_field (·.mpu) (by simp) (fun s k => s.readReg (Fin.ofNat 32 k)) _ s
@[simp] theorem State.pushRegs_irq (s : State) (n : Nat) : (s.pushRegs n).irq = s.irq :=
  foldl_push_field (·.irq) (by simp) (fun s k => s.readReg (Fin.ofNat 32 k)) _ s
@[simp] theorem State.pushRegs_inbox (s : State) (n : Nat) : (s.pushRegs n).inbox = s.inbox :=
  foldl_push_field (·.inbox) (by simp) (fun s k => s.readReg (Fin.ofNat 32 k)) _ s
@[simp] theorem State.pushRegs_out (s : State) (n : Nat) : (s.pushRegs n).out = s.out :=
  foldl_push_field (·.out) (by simp) (fun s k => s.readReg (Fin.ofNat 32 k)) _ s
@[simp] theorem State.pushRegs_refused (s : State) (n : Nat) : (s.pushRegs n).refused = s.refused :=
  foldl_push_field (·.refused) (by simp) (fun s k => s.readReg (Fin.ofNat 32 k)) _ s
@[simp] theorem State.pushRegs_resets (s : State) (n : Nat) : (s.pushRegs n).resets = s.resets :=
  foldl_push_field (·.resets) (by simp) (fun s k => s.readReg (Fin.ofNat 32 k)) _ s

@[simp] theorem State.pushIf_cfg (s : State) (b : Bool) (ws : List Word) : (s.pushIf b ws).cfg = s.cfg := by
  unfold State.pushIf; split
  · exact foldl_push_field (·.cfg) (by simp) (fun _ w => w) ws s
  · rfl
@[simp] theorem State.pushIf_status (s : State) (b : Bool) (ws : List Word) : (s.pushIf b ws).status = s.status := by
  unfold State.pushIf; split
  · exact foldl_push_field (·.status) (by simp) (fun _ w => w) ws s
  · rfl
@[simp] theorem State.pushIf_exc (s : State) (b : Bool) (ws : List Word) : (s.pushIf b ws).exc = s.exc := by
  unfold State.pushIf; split
  · exact foldl_push_field (·.exc) (by simp) (fun _ w => w) ws s
  · rfl
@[simp] theorem State.pushIf_tlb (s : State) (b : Bool) (ws : List Word) : (s.pushIf b ws).tlb = s.tlb := by
  unfold State.pushIf; split
  · exact foldl_push_field (·.tlb) (by simp) (fun _ w => w) ws s
  · rfl
@[simp] theorem State.pushIf_mpu (s : State) (b : Bool) (ws : List Word) : (s.pushIf b ws).mpu = s.mpu := by
  unfold State.pushIf; split
  · exact foldl_push_field (·.mpu) (by simp) (fun _ w => w) ws s
  · rfl
@[simp] theorem State.pushIf_irq (s : State) (b : Bool) (ws : List Word) : (s.pushIf b ws).irq = s.irq := by
  unfold State.pushIf; split
  · exact foldl_push_field (·.irq) (by simp) (fun _ w => w) ws s
  · rfl
@[simp] theorem State.pushIf_inbox (s : State) (b : Bool) (ws : List Word) : (s.pushIf b ws).inbox = s.inbox := by
  unfold State.pushIf; split
  · exact foldl_push_field (·.inbox) (by simp) (fun _ w => w) ws s
  · rfl
@[simp] theorem State.pushIf_out (s : State) (b : Bool) (ws : List Word) : (s.pushIf b ws).out = s.out := by
  unfold State.pushIf; split
  · exact foldl_push_field (·.out) (by simp) (fun _ w => w) ws s
  · rfl
@[simp] theorem State.pushIf_refused (s : State) (b : Bool) (ws : List Word) : (s.pushIf b ws).refused = s.refused := by
  unfold State.pushIf; split
  · exact foldl_push_field (·.refused) (by simp) (fun _ w => w) ws s
  · rfl
@[simp] theorem State.pushIf_resets (s : State) (b : Bool) (ws : List Word) : (s.pushIf b ws).resets = s.resets := by
  unfold State.pushIf; split
  · exact foldl_push_field (·.resets) (by simp) (fun _ w => w) ws s
  · rfl

@[simp] theorem State.pushFrame_cfg (s : State) (st pc : Word) : (s.pushFrame st pc).cfg = s.cfg := by
  simp [State.pushFrame]
@[simp] theorem State.pushFrame_status (s : State) (st pc : Word) : (s.pushFrame st pc).status = s.status := by
  simp [State.pushFrame]
@[simp] theorem State.pushFrame_exc (s : State) (st pc : Word) : (s.pushFrame st pc).exc = s.exc := by
  simp [State.pushFrame]
@[simp] theorem State.pushFrame_tlb (s : State) (st pc : Word) : (s.pushFrame st pc).tlb = s.tlb := by
  simp [State.pushFrame]
@[simp] theorem State.pushFrame_mpu (s : State) (st pc : Word) : (s.pushFrame st pc).mpu = s.mpu := by
  simp [State.pushFrame]
@[simp] theorem State.pushFrame_irq (s : State) (st pc : Word) : (s.pushFrame st pc).irq = s.irq := by
  simp [State.pushFrame]
@[simp] theorem State.pushFrame_inbox (s : State) (st pc : Word) : (s.pushFrame st pc).inbox = s.inbox := by
  simp [State.pushFrame]
@[simp] theorem State.pushFrame_out (s : State) (st pc : Word) : (s.pushFrame st pc).out = s.out := by
  simp [State.pushFrame]
@[simp] theorem State.pushFrame_refused (s : State) (st pc : Word) : (s.pushFrame st pc).refused = s.refused := by
  simp [State.pushFrame]
@[simp] theorem State.pushFrame_resets (s : State) (st pc : Word) : (s.pushFrame st pc).resets = s.resets := by
  simp [State.pushFrame]

@[simp] theorem State.popRegs_cfg (s : State) (n : Nat) : (s.popRegs n).cfg = s.cfg :=
  foldl_popReg_field (·.cfg) (by simp) (fun k => Fin.ofNat 32 k) _ s
@[simp] theorem State.popRegs_status (s : State) (n : Nat) : (s.popRegs n).status = s.status :=
  foldl_popReg_field (·.status) (by simp) (fun k => Fin.ofNat 32 k) _ s
@[simp] theorem State.popRegs_exc (s : State) (n : Nat) : (s.popRegs n).exc = s.exc :=
  foldl_popReg_field (·.exc) (by simp) (fun k => Fin.ofNat 32 k) _ s
@[simp] theorem State.popRegs_tlb (s : State) (n : Nat) : (s.popRegs n).tlb = s.tlb :=
  foldl_popReg_field (·.tlb) (by simp) (fun k => Fin.ofNat 32 k) _ s
@[simp] theorem State.popRegs_mpu (s : State) (n : Nat) : (s.popRegs n).mpu = s.mpu :=
  foldl_popReg_field (·.mpu) (by simp) (fun k => Fin.ofNat 32 k) _ s
@[simp] theorem State.popRegs_irq (s : State) (n : Nat) : (s.popRegs n).irq = s.irq :=
  foldl_popReg_field (·.irq) (by simp) (fun k => Fin.ofNat 32 k) _ s
@[simp] theorem State.popRegs_inbox (s : State) (n : Nat) : (s.popRegs n).inbox = s.inbox :=
  foldl_popReg_field (·.inbox) (by simp) (fun k => Fin.ofNat 32 k) _ s
@[simp] theorem State.popRegs_out (s : State) (n : Nat) : (s.popRegs n).out = s.out :=
  foldl_popReg_field (·.out) (by simp) (fun k => Fin.ofNat 32 k) _ s
@[simp] theorem State.popRegs_refused (s : State) (n : Nat) : (s.popRegs n).refused = s.refused :=
  foldl_popReg_field (·.refused) (by simp) (fun k => Fin.ofNat 32 k) _ s
@[simp] theorem State.popRegs_resets (s : State) (n : Nat) : (s.popRegs n).resets = s.resets :=
  foldl_popReg_field (·.resets) (by simp) (fun k => Fin.ofNat 32 k) _ s

@[simp] theorem State.popLoop_cfg (s : State) : (s.popLoop).cfg = s.cfg := by simp [State.popLoop]
@[simp] theorem State.popLoop_status (s : State) : (s.popLoop).status = s.status := by simp [State.popLoop]
@[simp] theorem State.popLoop_exc (s : State) : (s.popLoop).exc = s.exc := by simp [State.popLoop]
@[simp] theorem State.popLoop_tlb (s : State) : (s.popLoop).tlb = s.tlb := by simp [State.popLoop]
@[simp] theorem State.popLoop_mpu (s : State) : (s.popLoop).mpu = s.mpu := by simp [State.popLoop]
@[simp] theorem State.popLoop_irq (s : State) : (s.popLoop).irq = s.irq := by simp [State.popLoop]
@[simp] theorem State.popLoop_inbox (s : State) : (s.popLoop).inbox = s.inbox := by simp [State.popLoop]
@[simp] theorem State.popLoop_out (s : State) : (s.popLoop).out = s.out := by simp [State.popLoop]
@[simp] theorem State.popLoop_refused (s : State) : (s.popLoop).refused = s.refused := by simp [State.popLoop]
@[simp] theorem State.popLoop_resets (s : State) : (s.popLoop).resets = s.resets := by simp [State.popLoop]

@[simp] theorem State.popBases_cfg (s : State) : (s.popBases).cfg = s.cfg := by simp [State.popBases]
@[simp] theorem State.popBases_status (s : State) : (s.popBases).status = s.status := by simp [State.popBases]
@[simp] theorem State.popBases_exc (s : State) : (s.popBases).exc = s.exc := by simp [State.popBases]
@[simp] theorem State.popBases_tlb (s : State) : (s.popBases).tlb = s.tlb := by simp [State.popBases]
@[simp] theorem State.popBases_mpu (s : State) : (s.popBases).mpu = s.mpu := by simp [State.popBases]
@[simp] theorem State.popBases_irq (s : State) : (s.popBases).irq = s.irq := by simp [State.popBases]
@[simp] theorem State.popBases_inbox (s : State) : (s.popBases).inbox = s.inbox := by simp [State.popBases]
@[simp] theorem State.popBases_out (s : State) : (s.popBases).out = s.out := by simp [State.popBases]
@[simp] theorem State.popBases_refused (s : State) : (s.popBases).refused = s.refused := by simp [State.popBases]
@[simp] theorem State.popBases_resets (s : State) : (s.popBases).resets = s.resets := by simp [State.popBases]

@[simp] theorem State.popFrame_cfg (s : State) : (s.popFrame).cfg = s.cfg := by
  unfold State.popFrame; dsimp only; split <;> split <;> split <;> simp
@[simp] theorem State.popFrame_status (s : State) : (s.popFrame).status = s.status := by
  unfold State.popFrame; dsimp only; split <;> split <;> split <;> simp
@[simp] theorem State.popFrame_exc (s : State) : (s.popFrame).exc = s.exc := by
  unfold State.popFrame; dsimp only; split <;> split <;> split <;> simp
@[simp] theorem State.popFrame_tlb (s : State) : (s.popFrame).tlb = s.tlb := by
  unfold State.popFrame; dsimp only; split <;> split <;> split <;> simp
@[simp] theorem State.popFrame_mpu (s : State) : (s.popFrame).mpu = s.mpu := by
  unfold State.popFrame; dsimp only; split <;> split <;> split <;> simp
@[simp] theorem State.popFrame_irq (s : State) : (s.popFrame).irq = s.irq := by
  unfold State.popFrame; dsimp only; split <;> split <;> split <;> simp
@[simp] theorem State.popFrame_inbox (s : State) : (s.popFrame).inbox = s.inbox := by
  unfold State.popFrame; dsimp only; split <;> split <;> split <;> simp
@[simp] theorem State.popFrame_out (s : State) : (s.popFrame).out = s.out := by
  unfold State.popFrame; dsimp only; split <;> split <;> split <;> simp
@[simp] theorem State.popFrame_refused (s : State) : (s.popFrame).refused = s.refused := by
  unfold State.popFrame; dsimp only; split <;> split <;> split <;> simp
@[simp] theorem State.popFrame_resets (s : State) : (s.popFrame).resets = s.resets := by
  unfold State.popFrame; dsimp only; split <;> split <;> split <;> simp

/-! ### Taking an exception and returning from one -/

@[simp] theorem State.jumpVector_cfg (s : State) (v : Byte) : (s.jumpVector v).cfg = s.cfg := by simp [State.jumpVector]
@[simp] theorem State.jumpVector_cpu (s : State) (v : Byte) : (s.jumpVector v).cpu = s.cpu := by simp [State.jumpVector]
@[simp] theorem State.jumpVector_status (s : State) (v : Byte) : (s.jumpVector v).status = s.status := by simp [State.jumpVector]
@[simp] theorem State.jumpVector_exc (s : State) (v : Byte) : (s.jumpVector v).exc = s.exc := by simp [State.jumpVector]
@[simp] theorem State.jumpVector_tlb (s : State) (v : Byte) : (s.jumpVector v).tlb = s.tlb := by simp [State.jumpVector]
@[simp] theorem State.jumpVector_mpu (s : State) (v : Byte) : (s.jumpVector v).mpu = s.mpu := by simp [State.jumpVector]
@[simp] theorem State.jumpVector_irq (s : State) (v : Byte) : (s.jumpVector v).irq = s.irq := by simp [State.jumpVector]
@[simp] theorem State.jumpVector_inbox (s : State) (v : Byte) : (s.jumpVector v).inbox = s.inbox := by simp [State.jumpVector]
@[simp] theorem State.jumpVector_refused (s : State) (v : Byte) : (s.jumpVector v).refused = s.refused := by simp [State.jumpVector]
@[simp] theorem State.jumpVector_resets (s : State) (v : Byte) : (s.jumpVector v).resets = s.resets := by simp [State.jumpVector]

@[simp] theorem State.jumpVector_mem (s : State) (v : Byte) : (s.jumpVector v).mem = s.agentsMove.mem := rfl
@[simp] theorem State.jumpVector_otherAgents (s : State) (v : Byte) :
    (s.jumpVector v).otherAgents = s.agentsMove.otherAgents := rfl

@[simp] theorem State.enterException_cfg (s : State) (v c p : Byte) (a pc rpc : Word) : (s.enterException v c p a pc rpc).cfg = s.cfg := by
  simp [State.enterException]
@[simp] theorem State.enterException_tlb (s : State) (v c p : Byte) (a pc rpc : Word) : (s.enterException v c p a pc rpc).tlb = s.tlb := by
  simp [State.enterException]
@[simp] theorem State.enterException_mpu (s : State) (v c p : Byte) (a pc rpc : Word) : (s.enterException v c p a pc rpc).mpu = s.mpu := by
  simp [State.enterException]
@[simp] theorem State.enterException_irq (s : State) (v c p : Byte) (a pc rpc : Word) : (s.enterException v c p a pc rpc).irq = s.irq := by
  simp [State.enterException]
@[simp] theorem State.enterException_inbox (s : State) (v c p : Byte) (a pc rpc : Word) : (s.enterException v c p a pc rpc).inbox = s.inbox := by
  simp [State.enterException]
@[simp] theorem State.enterException_refused (s : State) (v c p : Byte) (a pc rpc : Word) : (s.enterException v c p a pc rpc).refused = s.refused := by
  simp [State.enterException]
@[simp] theorem State.enterException_resets (s : State) (v c p : Byte) (a pc rpc : Word) : (s.enterException v c p a pc rpc).resets = s.resets := by
  simp [State.enterException]

@[simp] theorem State.doubleFault_cfg (s : State) (a pc : Word) : (s.doubleFault a pc).cfg = s.cfg := by simp [State.doubleFault]
@[simp] theorem State.doubleFault_cpu (s : State) (a pc : Word) : (s.doubleFault a pc).cpu = s.cpu := by simp [State.doubleFault]
@[simp] theorem State.doubleFault_irq (s : State) (a pc : Word) : (s.doubleFault a pc).irq = s.irq := by simp [State.doubleFault]
@[simp] theorem State.doubleFault_inbox (s : State) (a pc : Word) : (s.doubleFault a pc).inbox = s.inbox := by simp [State.doubleFault]
@[simp] theorem State.doubleFault_refused (s : State) (a pc : Word) : (s.doubleFault a pc).refused = s.refused := by simp [State.doubleFault]
@[simp] theorem State.doubleFault_resets (s : State) (a pc : Word) : (s.doubleFault a pc).resets = s.resets := by simp [State.doubleFault]

@[simp] theorem State.raise_cfg (s : State) (v c p : Byte) (a pc rpc : Word) : (s.raise v c p a pc rpc).cfg = s.cfg := by
  unfold State.raise; split <;> simp
@[simp] theorem State.raise_irq (s : State) (v c p : Byte) (a pc rpc : Word) : (s.raise v c p a pc rpc).irq = s.irq := by
  unfold State.raise; split <;> simp
@[simp] theorem State.raise_inbox (s : State) (v c p : Byte) (a pc rpc : Word) : (s.raise v c p a pc rpc).inbox = s.inbox := by
  unfold State.raise; split <;> simp
@[simp] theorem State.raise_refused (s : State) (v c p : Byte) (a pc rpc : Word) : (s.raise v c p a pc rpc).refused = s.refused := by
  unfold State.raise; split <;> simp
@[simp] theorem State.raise_resets (s : State) (v c p : Byte) (a pc rpc : Word) : (s.raise v c p a pc rpc).resets = s.resets := by
  unfold State.raise; split <;> simp

@[simp] theorem State.raiseAt_cfg (s : State) (v c p : Byte) (a pc : Word) : (s.raiseAt v c p a pc).cfg = s.cfg := by
  simp [State.raiseAt]
@[simp] theorem State.raiseAt_irq (s : State) (v c p : Byte) (a pc : Word) : (s.raiseAt v c p a pc).irq = s.irq := by
  simp [State.raiseAt]
@[simp] theorem State.raiseAt_inbox (s : State) (v c p : Byte) (a pc : Word) : (s.raiseAt v c p a pc).inbox = s.inbox := by
  simp [State.raiseAt]
@[simp] theorem State.raiseAt_refused (s : State) (v c p : Byte) (a pc : Word) : (s.raiseAt v c p a pc).refused = s.refused := by
  simp [State.raiseAt]
@[simp] theorem State.raiseAt_resets (s : State) (v c p : Byte) (a pc : Word) : (s.raiseAt v c p a pc).resets = s.resets := by
  simp [State.raiseAt]

@[simp] theorem State.instructionError_cfg (s : State) (pc : Word) : (s.instructionError pc).cfg = s.cfg := by simp [State.instructionError]
@[simp] theorem State.instructionError_irq (s : State) (pc : Word) : (s.instructionError pc).irq = s.irq := by simp [State.instructionError]
@[simp] theorem State.instructionError_inbox (s : State) (pc : Word) : (s.instructionError pc).inbox = s.inbox := by simp [State.instructionError]
@[simp] theorem State.instructionError_refused (s : State) (pc : Word) : (s.instructionError pc).refused = s.refused := by simp [State.instructionError]
@[simp] theorem State.instructionError_resets (s : State) (pc : Word) : (s.instructionError pc).resets = s.resets := by simp [State.instructionError]

@[simp] theorem State.exceptionReturn_cfg (s : State) : (s.exceptionReturn).cfg = s.cfg := by simp [State.exceptionReturn]
@[simp] theorem State.exceptionReturn_exc (s : State) : (s.exceptionReturn).exc = s.exc := by simp [State.exceptionReturn]
@[simp] theorem State.exceptionReturn_tlb (s : State) : (s.exceptionReturn).tlb = s.tlb := by simp [State.exceptionReturn]
@[simp] theorem State.exceptionReturn_mpu (s : State) : (s.exceptionReturn).mpu = s.mpu := by simp [State.exceptionReturn]
@[simp] theorem State.exceptionReturn_irq (s : State) : (s.exceptionReturn).irq = s.irq := by simp [State.exceptionReturn]
@[simp] theorem State.exceptionReturn_mem (s : State) : (s.exceptionReturn).mem = s.mem := by simp [State.exceptionReturn]
@[simp] theorem State.exceptionReturn_otherAgents (s : State) : (s.exceptionReturn).otherAgents = s.otherAgents := by simp [State.exceptionReturn]
@[simp] theorem State.exceptionReturn_inbox (s : State) : (s.exceptionReturn).inbox = s.inbox := by simp [State.exceptionReturn]
@[simp] theorem State.exceptionReturn_refused (s : State) : (s.exceptionReturn).refused = s.refused := by simp [State.exceptionReturn]
@[simp] theorem State.exceptionReturn_resets (s : State) : (s.exceptionReturn).resets = s.resets := by simp [State.exceptionReturn]

end Sys2Proof.Machine
end

