-- ==== Sys2Proof/Laws/Memory.lean ====
section
/-! SUPPORT. The laws of physical memory: reading back what was written, leaving every other byte alone, and keeping
the canonical form (20_memory R72, R73). -/

namespace Sys2Proof.Machine

/-! ### The canonical form -/

theorem Memory.wfFrom_mono {lo lo' : Nat} (hlo : lo' ≤ lo) {m : Memory} (h : Memory.wfFrom lo m = true) :
    Memory.wfFrom lo' m = true := by
  cases m with
  | nil => rfl
  | cons c m =>
    simp only [Memory.wfFrom, Bool.and_eq_true, decide_eq_true_eq] at h ⊢
    exact ⟨⟨⟨by omega, h.1.1.2⟩, h.1.2⟩, h.2⟩

/-- Below the lowest address a canonical memory may list, every byte reads as unlisted. -/
theorem Memory.read_below {lo a : Nat} {m : Memory} (h : Memory.wfFrom lo m = true) (ha : a < lo) :
    m.read a = Memory.unlisted := by
  induction m generalizing lo with
  | nil => rfl
  | cons c m ih =>
    obtain ⟨b, x⟩ := c
    simp only [Memory.wfFrom, Bool.and_eq_true, decide_eq_true_eq] at h
    simp only [Memory.read, if_neg (show ¬a = b by omega)]
    exact ih h.2 (by omega)

theorem Memory.cell_wf {lo a : Nat} {x : Byte} {m : Memory} (hlo : lo ≤ a) (ha : a < 2 ^ 32)
    (h : Memory.wfFrom (a + 1) m = true) : Memory.wfFrom lo (Memory.cell a x m) = true := by
  unfold Memory.cell
  split
  · exact Memory.wfFrom_mono (by omega) h
  · rename_i hx
    simp only [Memory.wfFrom, Bool.and_eq_true, decide_eq_true_eq]
    exact ⟨⟨⟨hlo, ha⟩, hx⟩, h⟩

theorem Memory.write_wfFrom {lo a : Nat} {x : Byte} {m : Memory} (h : Memory.wfFrom lo m = true) (hlo : lo ≤ a)
    (ha : a < 2 ^ 32) : Memory.wfFrom lo (m.write a x) = true := by
  induction m generalizing lo with
  | nil => exact Memory.cell_wf hlo ha rfl
  | cons c m ih =>
    obtain ⟨b, y⟩ := c
    have hc := h
    simp only [Memory.wfFrom, Bool.and_eq_true, decide_eq_true_eq] at hc
    unfold Memory.write
    split
    · exact Memory.cell_wf hlo ha (by simp only [Memory.wfFrom, Bool.and_eq_true, decide_eq_true_eq]
                                      exact ⟨⟨⟨by omega, hc.1.1.2⟩, hc.1.2⟩, hc.2⟩)
    · split
      · rename_i hab; subst hab
        exact Memory.cell_wf hlo ha hc.2
      · simp only [Memory.wfFrom, Bool.and_eq_true, decide_eq_true_eq]
        exact ⟨hc.1, ih hc.2 (by omega)⟩

/-- Writing a byte keeps the canonical form. -/
theorem Memory.write_wf {a : Nat} {x : Byte} {m : Memory} (h : m.wf = true) (ha : a < 2 ^ 32) :
    (m.write a x).wf = true :=
  Memory.write_wfFrom h (by omega) ha

/-- A batch of byte writes keeps the canonical form. -/
theorem Memory.writeCells_wf {m : Memory} {cells : List Host.Cell} (h : m.wf = true) :
    (m.writeCells cells).wf = true := by
  unfold Memory.writeCells
  induction cells generalizing m with
  | nil => exact h
  | cons c cells ih => exact ih (Memory.write_wf h (Nat.mod_lt _ (by norm_num)))

theorem byteAddr_lt (a : Word) (k : Nat) : byteAddr a k < 2 ^ 32 := BitVec.isLt _

/-- Writing a word keeps the canonical form. -/
theorem Memory.writeWord_wf {m : Memory} {en : Endian} {a x : Word} (h : m.wf = true) :
    (m.writeWord en a x).wf = true :=
  Memory.write_wf (Memory.write_wf (Memory.write_wf (Memory.write_wf h (byteAddr_lt _ _)) (byteAddr_lt _ _))
    (byteAddr_lt _ _)) (byteAddr_lt _ _)

/-! ### Reading after writing -/

theorem Memory.read_cell_self {a : Nat} {x : Byte} {m : Memory} (h : Memory.wfFrom (a + 1) m = true) :
    (Memory.cell a x m).read a = x := by
  unfold Memory.cell
  split
  · rename_i hx; rw [hx]; exact Memory.read_below h (by omega)
  · simp [Memory.read]

theorem Memory.read_cell_other {a b : Nat} {x : Byte} {m : Memory} (h : b ≠ a) :
    (Memory.cell a x m).read b = m.read b := by
  unfold Memory.cell
  split
  · rfl
  · simp [Memory.read, h]

theorem Memory.read_write_selfFrom {lo a : Nat} {x : Byte} {m : Memory} (h : Memory.wfFrom lo m = true) :
    (m.write a x).read a = x := by
  induction m generalizing lo with
  | nil => exact Memory.read_cell_self rfl
  | cons c m ih =>
    obtain ⟨b, y⟩ := c
    have hc := h
    simp only [Memory.wfFrom, Bool.and_eq_true, decide_eq_true_eq] at hc
    unfold Memory.write
    split
    · exact Memory.read_cell_self (by
        simp only [Memory.wfFrom, Bool.and_eq_true, decide_eq_true_eq]
        exact ⟨⟨⟨by omega, hc.1.1.2⟩, hc.1.2⟩, hc.2⟩)
    · split
      · rename_i hab; subst hab; exact Memory.read_cell_self hc.2
      · rename_i hab; simp only [Memory.read, if_neg hab]; exact ih hc.2

/-- A byte read after a write to the same address is the byte written. -/
theorem Memory.read_write_self {a : Nat} {x : Byte} {m : Memory} (h : m.wf = true) : (m.write a x).read a = x :=
  Memory.read_write_selfFrom h

/-- A write leaves every other byte alone. -/
theorem Memory.read_write_other {a b : Nat} {x : Byte} {m : Memory} (h : b ≠ a) : (m.write a x).read b = m.read b := by
  induction m with
  | nil => exact Memory.read_cell_other h
  | cons c m ih =>
    obtain ⟨d, y⟩ := c
    unfold Memory.write
    split
    · exact Memory.read_cell_other h
    · split
      · rename_i had; subst had
        rw [Memory.read_cell_other h, Memory.read, if_neg h]
      · simp only [Memory.read, ih]

/-- Writing a word leaves every byte outside it alone (20_memory R73). -/
theorem Memory.read_writeWord_other {m : Memory} {en : Endian} {a x : Word} {b : Nat} (h : ¬inWord a b) :
    (m.writeWord en a x).read b = m.read b := by
  have hk : ∀ k < 4, b ≠ byteAddr a k := fun k hk e => h ⟨k, hk, e⟩
  unfold Memory.writeWord
  rw [Memory.read_write_other (hk 3 (by omega)), Memory.read_write_other (hk 2 (by omega)),
    Memory.read_write_other (hk 1 (by omega)), Memory.read_write_other (hk 0 (by omega))]

theorem byteAddr_inj {a : Word} {j k : Nat} (hj : j < 4) (hk : k < 4) (h : byteAddr a j = byteAddr a k) : j = k := by
  unfold byteAddr at h
  have h1 : a + BitVec.ofNat 32 j = a + BitVec.ofNat 32 k := BitVec.eq_of_toNat_eq h
  have h2 : BitVec.ofNat 32 j = BitVec.ofNat 32 k := by simpa using h1
  have h3 := congrArg BitVec.toNat h2
  simp only [BitVec.toNat_ofNat] at h3
  omega

/-- Byte `k` of a word just written (20_memory R73). -/
theorem Memory.read_writeWord_byte {m : Memory} {en : Endian} {a x : Word} {k : Nat} (h : m.wf = true) (hk : k < 4) :
    (m.writeWord en a x).read (byteAddr a k) = storedByte en x k := by
  have ne : ∀ {i j : Nat}, i < 4 → j < 4 → i ≠ j → byteAddr a i ≠ byteAddr a j :=
    fun hi hj hij e => hij (byteAddr_inj hi hj e)
  have h1 := Memory.write_wf (x := storedByte en x 0) h (byteAddr_lt a 0)
  have h2 := Memory.write_wf (x := storedByte en x 1) h1 (byteAddr_lt a 1)
  have h3 := Memory.write_wf (x := storedByte en x 2) h2 (byteAddr_lt a 2)
  unfold Memory.writeWord
  match k, hk with
  | 0, _ =>
    rw [Memory.read_write_other (ne (by omega) (by omega) (by omega)),
      Memory.read_write_other (ne (by omega) (by omega) (by omega)),
      Memory.read_write_other (ne (by omega) (by omega) (by omega)), Memory.read_write_self h]
  | 1, _ =>
    rw [Memory.read_write_other (ne (by omega) (by omega) (by omega)),
      Memory.read_write_other (ne (by omega) (by omega) (by omega)), Memory.read_write_self h1]
  | 2, _ => rw [Memory.read_write_other (ne (by omega) (by omega) (by omega)), Memory.read_write_self h2]
  | 3, _ => exact Memory.read_write_self h3

theorem word_of_bytes (x : Word) : byteOf x 3 ++ byteOf x 2 ++ byteOf x 1 ++ byteOf x 0 = x := by
  ext i hi
  simp only [byteOf, BitVec.getElem_append, BitVec.getElem_extractLsb']
  split
  · simp [BitVec.getLsbD_eq_getElem hi]
  · split
    · rw [show 8 * 1 + (i - 8) = i by omega, BitVec.getLsbD_eq_getElem hi]
    · split
      · rw [show 8 * 2 + (i - 8 - 8) = i by omega, BitVec.getLsbD_eq_getElem hi]
      · rw [show 8 * 3 + (i - 8 - 8 - 8) = i by omega, BitVec.getLsbD_eq_getElem hi]

/-- A word read after a write to the same address is the word written (20_memory R72, R73). -/
theorem Memory.readWord_writeWord_self {m : Memory} {en : Endian} {a x : Word} (h : m.wf = true) :
    (m.writeWord en a x).readWord en a = x := by
  cases en <;>
    simp [Memory.readWord, Memory.read_writeWord_byte h, storedByte, word_of_bytes]

/-- Two words of memory are the same if their four bytes are. -/
theorem Memory.readWord_congr {m m' : Memory} {en : Endian} {a : Word}
    (h : ∀ k < 4, m'.read (byteAddr a k) = m.read (byteAddr a k)) : m'.readWord en a = m.readWord en a := by
  cases en <;>
    simp [Memory.readWord, h 0 (by omega), h 1 (by omega), h 2 (by omega), h 3 (by omega)]

/-- A word is left alone by a write of a word none of whose bytes it shares. -/
theorem Memory.readWord_writeWord_other {m : Memory} {en : Endian} {a b x : Word}
    (h : ∀ k < 4, ¬inWord a (byteAddr b k)) : (m.writeWord en a x).readWord en b = m.readWord en b :=
  Memory.readWord_congr fun k hk => Memory.read_writeWord_other (h k hk)

/-! ### What the accesses of the block do to memory -/

theorem State.agentsMove_wf {s : State} (h : s.mem.wf = true) : s.agentsMove.mem.wf = true := by
  unfold State.agentsMove
  split
  · exact h
  · exact Memory.writeCells_wf h

theorem State.memWrite_wf {s : State} {a x : Word} (h : s.mem.wf = true) : (s.memWrite a x).mem.wf = true := by
  rw [State.memWrite_mem]; exact Memory.writeWord_wf (State.agentsMove_wf h)

theorem State.push_wf {s : State} {w : Word} (h : s.mem.wf = true) : (s.push w).mem.wf = true :=
  State.memWrite_wf (by simpa using h)

theorem State.popped_wf {s : State} (h : s.mem.wf = true) : s.popped.mem.wf = true := by
  simpa [State.popped] using State.agentsMove_wf h

theorem State.popReg_wf {s : State} {i : Fin 32} (h : s.mem.wf = true) : (s.popReg i).mem.wf = true := by
  simpa [State.popReg] using State.popped_wf h

end Sys2Proof.Machine
end

