-- ==== Sys2Proof/Laws/Registers.lean ====
section
/-! SUPPORT. The laws of the general registers: the bank selector (10_state R23), the registers that are never banked
(R21), and the stack-pointer switch (R24). -/

namespace Sys2Proof.Machine

/-! ### What an implementation's parameters say -/

theorem Config.wf_iff (cfg : Config) : cfg.wf = true ↔
    13 ≤ cfg.pageBits ∧ cfg.pageBits ≤ 24 ∧ cfg.mpuRegions ∈ [0, 1, 2, 4, 8, 16] ∧ 1 ≤ cfg.numPrio ∧
      cfg.numPrio ≤ 16 ∧ cfg.numHwIrq ≤ cfg.numIrq ∧ cfg.numIrq ≤ 240 ∧ cfg.numBanks ∈ [1, 2] ∧
      cfg.bankedSet.getLsbD 28 = false ∧ cfg.bankedSet.getLsbD 29 = false ∧
      cfg.bankedSet.getLsbD 31 = false ∧ cfg.auxIdsWf = true := by
  simp only [Config.wf, Bool.and_eq_true, Bool.not_eq_true', decide_eq_true_eq]
  tauto

/-- `SP`, `ILINK` and `BLINK` are never banked (10_state R21). -/
theorem not_banked {cfg : Config} (h : cfg.wf = true) {i : Fin 32} (hi : i = regSp ∨ i = regIlink ∨ i = regBlink) :
    isBanked cfg i = false := by
  obtain ⟨-, -, -, -, -, -, -, -, h28, h29, h31, -⟩ := (Config.wf_iff cfg).1 h
  unfold isBanked
  obtain rfl | rfl | rfl := hi
  · exact Bool.and_eq_false_iff.2 (.inr h28)
  · exact Bool.and_eq_false_iff.2 (.inr h29)
  · exact Bool.and_eq_false_iff.2 (.inr h31)

/-! ### The bank selector -/

/-- What a register reads as depends on the parameters, the registers and the bank select bit alone. -/
theorem State.readReg_congr {s t : State} (hc : t.cfg = s.cfg) (hr : t.cpu = s.cpu)
    (hb : t.status.rb = s.status.rb) (i : Fin 32) : t.readReg i = s.readReg i := by
  simp [State.readReg, hc, hr, hb]

/-- A register reads back what was written to it (10_state R23). -/
@[simp] theorem State.readReg_writeReg_self (s : State) (i : Fin 32) (v : Word) : (s.writeReg i v).readReg i = v := by
  unfold State.readReg
  simp only [State.writeReg_cfg, State.writeReg_status]
  unfold State.writeReg
  split
  · split <;> simp [Vector.get_eq_getElem]
  · simp [Vector.get_eq_getElem]

/-- Writing a register leaves every other register alone (10_state R23). -/
theorem State.readReg_writeReg_other (s : State) {i j : Fin 32} (v : Word) (h : j ≠ i) :
    (s.writeReg i v).readReg j = s.readReg j := by
  have hv : i.val ≠ j.val := fun e => h (Fin.ext e.symm)
  unfold State.readReg
  simp only [State.writeReg_cfg, State.writeReg_status]
  unfold State.writeReg
  split <;> split <;> (try split) <;> simp_all [Vector.get_eq_getElem]

@[simp] theorem State.writeReg_userSp (s : State) (i : Fin 32) (v : Word) :
    (s.writeReg i v).cpu.userSp = s.cpu.userSp := by
  unfold State.writeReg; split <;> [split <;> rfl; rfl]
@[simp] theorem State.writeReg_bta (s : State) (i : Fin 32) (v : Word) :
    (s.writeReg i v).cpu.bta = s.cpu.bta := by
  unfold State.writeReg; split <;> [split <;> rfl; rfl]
@[simp] theorem State.writeReg_lpCount (s : State) (i : Fin 32) (v : Word) :
    (s.writeReg i v).cpu.lpCount = s.cpu.lpCount := by
  unfold State.writeReg; split <;> [split <;> rfl; rfl]
@[simp] theorem State.writeReg_lpStart (s : State) (i : Fin 32) (v : Word) :
    (s.writeReg i v).cpu.lpStart = s.cpu.lpStart := by
  unfold State.writeReg; split <;> [split <;> rfl; rfl]
@[simp] theorem State.writeReg_lpEnd (s : State) (i : Fin 32) (v : Word) :
    (s.writeReg i v).cpu.lpEnd = s.cpu.lpEnd := by
  unfold State.writeReg; split <;> [split <;> rfl; rfl]
@[simp] theorem State.writeReg_eiBase (s : State) (i : Fin 32) (v : Word) :
    (s.writeReg i v).cpu.eiBase = s.cpu.eiBase := by
  unfold State.writeReg; split <;> [split <;> rfl; rfl]
@[simp] theorem State.writeReg_ldiBase (s : State) (i : Fin 32) (v : Word) :
    (s.writeReg i v).cpu.ldiBase = s.cpu.ldiBase := by
  unfold State.writeReg; split <;> [split <;> rfl; rfl]
@[simp] theorem State.writeReg_jliBase (s : State) (i : Fin 32) (v : Word) :
    (s.writeReg i v).cpu.jliBase = s.cpu.jliBase := by
  unfold State.writeReg; split <;> [split <;> rfl; rfl]

/-- Writing a register twice keeps the second value. -/
theorem State.writeReg_writeReg_self (s : State) (i : Fin 32) (v w : Word) :
    (s.writeReg i v).writeReg i w = s.writeReg i w := by
  unfold State.writeReg
  split
  · split <;> simp_all [Vector.set_set]
  · simp_all [Vector.set_set]

/-- Writing a register's own value changes nothing. -/
theorem State.writeReg_readReg (s : State) (i : Fin 32) : s.writeReg i (s.readReg i) = s := by
  unfold State.writeReg State.readReg
  split
  · split <;> simp [Vector.get_eq_getElem]
  · simp [Vector.get_eq_getElem]

/-! ### The stack-pointer switch -/

/-- The switch puts `USER_SP` into `SP` (10_state R24). -/
@[simp] theorem State.switchSp_readReg_sp (s : State) : s.switchSp.readReg regSp = s.cpu.userSp := by
  have h : s.switchSp.readReg regSp = (s.writeReg regSp s.cpu.userSp).readReg regSp := rfl
  rw [h, State.readReg_writeReg_self]

/-- The switch puts `SP` into `USER_SP` (10_state R24). -/
@[simp] theorem State.switchSp_userSp (s : State) : s.switchSp.cpu.userSp = s.readReg regSp := rfl

/-- The switch leaves every other register alone (10_state R24). -/
theorem State.switchSp_readReg_other (s : State) {i : Fin 32} (h : i ≠ regSp) : s.switchSp.readReg i = s.readReg i := by
  have h1 : s.switchSp.readReg i = (s.writeReg regSp s.cpu.userSp).readReg i := rfl
  rw [h1, State.readReg_writeReg_other s _ h]

@[simp] theorem State.switchSp_bta (s : State) : s.switchSp.cpu.bta = s.cpu.bta := by simp [State.switchSp]
@[simp] theorem State.switchSp_lpCount (s : State) : s.switchSp.cpu.lpCount = s.cpu.lpCount := by
  simp [State.switchSp]
@[simp] theorem State.switchSp_lpStart (s : State) : s.switchSp.cpu.lpStart = s.cpu.lpStart := by
  simp [State.switchSp]
@[simp] theorem State.switchSp_lpEnd (s : State) : s.switchSp.cpu.lpEnd = s.cpu.lpEnd := by simp [State.switchSp]
@[simp] theorem State.switchSp_eiBase (s : State) : s.switchSp.cpu.eiBase = s.cpu.eiBase := by
  simp [State.switchSp]
@[simp] theorem State.switchSp_ldiBase (s : State) : s.switchSp.cpu.ldiBase = s.cpu.ldiBase := by
  simp [State.switchSp]
@[simp] theorem State.switchSp_jliBase (s : State) : s.switchSp.cpu.jliBase = s.cpu.jliBase := by
  simp [State.switchSp]

/-! ### Pushes and pops -/

/-- A push moves `SP` down by 4 (43_interrupts R256). -/
@[simp] theorem State.push_readReg_sp (s : State) (w : Word) : (s.push w).readReg regSp = s.readReg regSp - 4 := by
  unfold State.push
  rw [State.readReg_congr (s := s.writeReg regSp (s.readReg regSp - 4)) (by simp) (by simp) (by simp),
    State.readReg_writeReg_self]

/-- A push leaves every register but `SP` alone (43_interrupts R256). -/
theorem State.push_readReg_other (s : State) (w : Word) {i : Fin 32} (h : i ≠ regSp) :
    (s.push w).readReg i = s.readReg i := by
  unfold State.push
  rw [State.readReg_congr (s := s.writeReg regSp (s.readReg regSp - 4)) (by simp) (by simp) (by simp),
    State.readReg_writeReg_other s _ h]

/-- A push writes its word at the new `SP`, after what other agents write (43_interrupts R256). -/
theorem State.push_mem (s : State) (w : Word) :
    (s.push w).mem = s.agentsMove.mem.writeWord s.cfg.endian (s.readReg regSp - 4) w := by
  have h : (s.writeReg regSp (s.readReg regSp - 4)).agentsMove.mem = s.agentsMove.mem := by
    unfold State.agentsMove
    rw [State.writeReg_otherAgents]
    cases s.otherAgents <;> simp
  unfold State.push
  simp only [State.memWrite_mem, State.writeReg_cfg, State.readReg_writeReg_self, h]

/-- A pop moves `SP` up by 4 (43_interrupts R256). -/
@[simp] theorem State.popped_readReg_sp (s : State) : s.popped.readReg regSp = s.readReg regSp + 4 := by
  have h : s.agentsMove.readReg regSp = s.readReg regSp := State.readReg_congr (by simp) (by simp) (by simp) _
  unfold State.popped
  rw [State.readReg_writeReg_self, h]

/-- A pop leaves every register but `SP` alone (43_interrupts R256). -/
theorem State.popped_readReg_other (s : State) {i : Fin 32} (h : i ≠ regSp) : s.popped.readReg i = s.readReg i := by
  unfold State.popped
  rw [State.readReg_writeReg_other _ _ h]
  exact State.readReg_congr (by simp) (by simp) (by simp) _

/-- A pop only reads memory (43_interrupts R256). -/
@[simp] theorem State.popped_mem (s : State) : s.popped.mem = s.agentsMove.mem := by simp [State.popped]

theorem State.push_otherAgents (s : State) (w : Word) :
    (s.push w).otherAgents = (s.writeReg regSp (s.readReg regSp - 4)).agentsMove.otherAgents := rfl

/-- Nobody disturbs a push where nobody was about to. -/
theorem State.push_undisturbed {s : State} (h : s.undisturbed) (w : Word) : (s.push w).undisturbed := by
  have h' : (s.writeReg regSp (s.readReg regSp - 4)).undisturbed := by simpa [State.undisturbed] using h
  unfold State.undisturbed
  rw [State.push_otherAgents, State.agentsMove_undisturbed h']
  exact h'

theorem State.popped_undisturbed {s : State} (h : s.undisturbed) : s.popped.undisturbed := by
  unfold State.popped
  rw [State.agentsMove_undisturbed h]
  simpa [State.undisturbed] using h

end Sys2Proof.Machine
end

