-- ==== Sys2Proof/Laws/Exception.lean ====
section
/-! SUPPORT. Everything taking an exception and returning from one can do, as one equation each, so that a proof cites
the equation and never unfolds the operation. -/

namespace Sys2Proof.Machine

/-- Two states with the same fields are the same state. -/
theorem State.eq_of_fields {s t : State} (h1 : s.cfg = t.cfg) (h2 : s.cpu = t.cpu) (h3 : s.status = t.status)
    (h4 : s.exc = t.exc) (h5 : s.tlb = t.tlb) (h6 : s.mpu = t.mpu) (h7 : s.irq = t.irq) (h8 : s.mem = t.mem)
    (h9 : s.otherAgents = t.otherAgents) (h10 : s.inbox = t.inbox) (h11 : s.out = t.out)
    (h12 : s.refused = t.refused) (h13 : s.resets = t.resets) : s = t := by
  cases s; cases t; simp_all

/-- A move of the other agents changes memory and their schedule alone. -/
theorem State.agentsMove_eq (s : State) :
    s.agentsMove = { s with mem := s.agentsMove.mem, otherAgents := s.agentsMove.otherAgents } :=
  State.eq_of_fields (by simp) (by simp) (by simp) (by simp) (by simp) (by simp) (by simp) rfl rfl (by simp) (by simp)
    (by simp) (by simp)

/-- What the other agents write depends on memory and their schedule alone. -/
theorem State.agentsMove_congr {s t : State} (hm : t.mem = s.mem) (ho : t.otherAgents = s.otherAgents) :
    t.agentsMove.mem = s.agentsMove.mem ∧ t.agentsMove.otherAgents = s.agentsMove.otherAgents := by
  unfold State.agentsMove
  rw [hm, ho]
  split <;> simp_all

/-- The stack-pointer switch changes the CPU registers alone. -/
theorem State.switchSpIf_eq (s : State) (b : Bool) : s.switchSpIf b = { s with cpu := (s.switchSpIf b).cpu } :=
  State.eq_of_fields (by simp) rfl (by simp) (by simp) (by simp) (by simp) (by simp) (by simp) (by simp) (by simp)
    (by simp) (by simp) (by simp)

/-- The stack-pointer switch depends on the parameters, the registers and the bank alone. -/
theorem State.switchSpIf_cpu_congr {s t : State} (b : Bool) (hc : t.cfg = s.cfg) (hr : t.cpu = s.cpu)
    (hb : t.status.rb = s.status.rb) : (t.switchSpIf b).cpu = (s.switchSpIf b).cpu := by
  cases b
  · simpa using hr
  · simp only [State.switchSpIf_true]
    unfold State.switchSp State.writeReg State.readReg
    rw [hc, hr, hb]
    split <;> [split <;> simp; simp]

/-- The vector fetch, whole (60_exceptions R292). -/
theorem State.jumpVector_eq (s : State) (v : Byte) :
    s.jumpVector v =
      { s with
        mem := s.agentsMove.mem
        otherAgents := s.agentsMove.otherAgents
        out.nextPc := some (s.agentsMove.word (s.exc.ivb + (v.setWidth 32 <<< 2))) } := by
  cases s with | mk cfg cpu status exc tlb mpu irq mem others inbox out refused resets =>
  cases others <;> rfl

/-- The vector fetch of a state that differs from `s` only where the fetch does not look. -/
theorem State.agentsMove_word_congr {s t : State} (hm : t.mem = s.mem) (ho : t.otherAgents = s.otherAgents)
    (hc : t.cfg = s.cfg) (a : Word) : t.agentsMove.word a = s.agentsMove.word a := by
  unfold State.word
  rw [(State.agentsMove_congr hm ho).1, State.agentsMove_cfg, State.agentsMove_cfg, hc]

/-- Exception entry, whole (60_exceptions R285). -/
theorem State.raise_normal {s : State} (h : s.status.ae = false) (v c p : Byte) (a pc rpc : Word) :
    s.raise v c p a pc rpc =
      { s with
        cpu := (s.switchSpIf s.status.u).cpu
        mem := s.agentsMove.mem
        otherAgents := s.agentsMove.otherAgents
        exc := { s.exc with
          erstatus := packStatus s.status, erbta := s.cpu.bta, eret := rpc, ecr := causeWord v c p,
          efa := efaValue v a pc }
        status := exceptionStatus s.status
        out := { s.out with
          nextPc := some (s.agentsMove.word (s.exc.ivb + (v.setWidth 32 <<< 2)))
          fault := some { vector := v, cause := c, param := p, faddr := a } } } := by
  unfold State.raise State.enterException State.describeFault
  rw [if_neg (by simp [h])]
  dsimp only
  rw [State.jumpVector_eq, State.switchSpIf_eq]
  refine State.eq_of_fields rfl ?_ rfl rfl rfl rfl rfl ?_ ?_ rfl ?_ rfl rfl
  · exact State.switchSpIf_cpu_congr (s := s) _ rfl rfl rfl
  · refine (State.agentsMove_congr (s := s) ?_ ?_).1 <;> rfl
  · refine (State.agentsMove_congr (s := s) ?_ ?_).2 <;> rfl
  · simp only [Outputs.mk.injEq, Option.some.injEq, and_true]
    refine State.agentsMove_word_congr (s := s) ?_ ?_ ?_ _ <;> rfl

/-- A double fault, whole (60_exceptions R284). -/
theorem State.raise_double {s : State} (h : s.status.ae = true) (v c p : Byte) (a pc rpc : Word) :
    s.raise v c p a pc rpc =
      { s with
        mem := s.agentsMove.mem
        otherAgents := s.agentsMove.otherAgents
        tlb.pid.t := false
        mpu.en := false
        exc.ecr := causeWord vecMachineCheck 0 0
        exc.efa := pc
        status := doubleFaultStatus s.status
        out := { s.out with
          flushOut := s.out.flushOut ++ [.all]
          nextPc := some (s.agentsMove.word (s.exc.ivb + (vecMachineCheck.setWidth 32 <<< 2)))
          fault := some { vector := vecMachineCheck, cause := 0, param := 0, faddr := a } } } := by
  unfold State.raise
  rw [if_pos h]
  unfold State.doubleFault State.describeFault State.flush
  dsimp only
  rw [State.jumpVector_eq]
  refine State.eq_of_fields rfl rfl rfl rfl rfl rfl rfl ?_ ?_ rfl ?_ rfl rfl
  · refine (State.agentsMove_congr (s := s) ?_ ?_).1 <;> rfl
  · refine (State.agentsMove_congr (s := s) ?_ ?_).2 <;> rfl
  · simp only [Outputs.mk.injEq, Option.some.injEq, and_true]
    refine State.agentsMove_word_congr (s := s) ?_ ?_ ?_ _ <;> rfl

/-- Taking an exception moves no TLB entry and no victim pointer. -/
@[simp] theorem State.raise_tlbArrays (s : State) (v c p : Byte) (a pc rpc : Word) :
    (s.raise v c p a pc rpc).tlb.entries = s.tlb.entries ∧ (s.raise v c p a pc rpc).tlb.rr = s.tlb.rr := by
  cases h : s.status.ae
  · rw [State.raise_normal h]; exact ⟨rfl, rfl⟩
  · rw [State.raise_double h]; exact ⟨rfl, rfl⟩

/-- Taking an exception keeps memory in its canonical form. -/
theorem State.raise_wf {s : State} (hm : s.mem.wf = true) (v c p : Byte) (a pc rpc : Word) :
    (s.raise v c p a pc rpc).mem.wf = true := by
  cases h : s.status.ae
  · rw [State.raise_normal h]; exact State.agentsMove_wf hm
  · rw [State.raise_double h]; exact State.agentsMove_wf hm

/-- Exception return, whole (60_exceptions R297). -/
theorem State.exceptionReturn_eq (s : State) :
    s.exceptionReturn =
      { s with
        cpu := ({ s with
          status := unpackStatus s.cfg s.exc.erstatus
          cpu.bta := s.exc.erbta }.switchSpIf (unpackStatus s.cfg s.exc.erstatus).u).cpu
        status := unpackStatus s.cfg s.exc.erstatus
        out.nextPc := some s.exc.eret } := by
  unfold State.exceptionReturn State.jump
  dsimp only
  rw [State.switchSpIf_eq]

end Sys2Proof.Machine
end

