-- ==== Sys2Proof/Laws/Vectors.lean ====
section
/-! SUPPORT. Elements of the vectors the model builds, and the lowest set bit of a bitmap. -/

namespace Sys2Proof.Machine

@[simp] theorem getElem_tabulate {α : Type} {n : Nat} (f : Nat → α) {i : Nat} (h : i < n) :
    (tabulate n f)[i] = f i := by
  simp [tabulate]

@[simp] theorem get_tabulate {α : Type} {n : Nat} (f : Nat → α) (i : Fin n) : (tabulate n f).get i = f i := by
  simp [Vector.get_eq_getElem]

theorem getD_tabulate {α : Type} {n : Nat} (f : Nat → α) {i : Nat} (d : α) (h : i < n) :
    (tabulate n f).getD i d = f i := by
  simp [Vector.getD, h]

@[simp] theorem getElem_mapEach {α : Type} {n : Nat} (f : α → α) (v : Vector α n) {i : Nat} (h : i < n) :
    (mapEach f v)[i] = f v[i] := by
  simp [mapEach]

@[simp] theorem get_mapEach {α : Type} {n : Nat} (f : α → α) (v : Vector α n) (i : Fin n) :
    (mapEach f v).get i = f (v.get i) := by
  simp [Vector.get_eq_getElem]

theorem getD_setIfInBounds_self {α : Type} {n : Nat} (v : Vector α n) {i : Nat} (x d : α) (h : i < n) :
    (v.setIfInBounds i x).getD i d = x := by
  simp [Vector.getD, h]

theorem getD_setIfInBounds_other {α : Type} {n : Nat} (v : Vector α n) {i j : Nat} (x d : α) (h : j ≠ i) :
    (v.setIfInBounds i x).getD j d = v.getD j d := by
  simp [Vector.getD, Array.getD_eq_getD_getElem?, Array.getElem?_setIfInBounds_ne (Ne.symm h)]

/-- `lsb?` finds the lowest set bit (00_scope section 5). -/
theorem lsb?_eq_some {b : BitVec 16} {p : Nat} :
    lsb? b = some p ↔ p < 16 ∧ b.getLsbD p = true ∧ ∀ q < p, b.getLsbD q = false := by
  unfold lsb?
  rw [List.find?_range_eq_some]
  simp only [List.mem_range, Bool.not_eq_true']
  tauto

/-- `lsb?` finds nothing in the empty bitmap alone. -/
theorem lsb?_eq_none {b : BitVec 16} : lsb? b = none ↔ b = 0 := by
  unfold lsb?
  simp only [List.find?_eq_none, List.mem_range, Bool.not_eq_true]
  constructor
  · intro h
    ext i hi
    simpa [BitVec.getLsbD_eq_getElem hi] using h i hi
  · rintro rfl p -
    simp

end Sys2Proof.Machine
end

