-- ==== Sys2Proof/Laws/Irq.lean ====
section
/-! SUPPORT. The interrupt controller: what an update of one source or line changes, the marks an entry leaves
(43_interrupts R251), and what entry and return leave alone. -/

namespace Sys2Proof.Machine

theorem State.source_setSource_self (s : State) {n : Nat} (e : IrqSource) (h : n < 240) :
    (s.setSource n e).source n = e := getD_setIfInBounds_self _ _ _ h

theorem State.source_setSource_other (s : State) {n m : Nat} (e : IrqSource) (h : m ≠ n) :
    (s.setSource n e).source m = s.source m := getD_setIfInBounds_other _ _ _ h

@[simp] theorem State.lineOf_setSource (s : State) (n m : Nat) (e : IrqSource) :
    (s.setSource n e).lineOf m = s.lineOf m := rfl

theorem State.lineOf_setLine_self (s : State) {n : Nat} (level : Bool) (h : n < 240) :
    (s.setLine n level).lineOf n = level := getD_setIfInBounds_self _ _ _ h

theorem State.lineOf_setLine_other (s : State) {n m : Nat} (level : Bool) (h : m ≠ n) :
    (s.setLine n level).lineOf m = s.lineOf m := getD_setIfInBounds_other _ _ _ h

@[simp] theorem State.source_setLine (s : State) (n m : Nat) (level : Bool) :
    (s.setLine n level).source m = s.source m := rfl

/-- Changing a source changes the sources alone. -/
theorem State.setSource_eq (s : State) (n : Nat) (e : IrqSource) :
    s.setSource n e = { s with irq.sources := (s.setSource n e).irq.sources } := rfl

/-- The entry's marks change the interrupt controller alone (43_interrupts R251). -/
theorem State.markEntry_eq (s : State) (n p : Nat) : s.markEntry n p = { s with irq := (s.markEntry n p).irq } := by
  unfold State.markEntry
  dsimp only
  split <;> [split <;> rfl; rfl]

/-- An entry sets the bit of its level and no other (43_interrupts R251). -/
@[simp] theorem State.markEntry_act (s : State) (n p : Nat) : (s.markEntry n p).irq.act = setAct s.irq.act p := by
  unfold State.markEntry
  dsimp only
  split <;> [split <;> rfl; rfl]

@[simp] theorem State.markEntry_ctrl (s : State) (n p : Nat) : (s.markEntry n p).irq.ctrl = s.irq.ctrl := by
  unfold State.markEntry
  dsimp only
  split <;> [split <;> rfl; rfl]

@[simp] theorem State.markEntry_lines (s : State) (n p : Nat) : (s.markEntry n p).irq.lines = s.irq.lines := by
  unfold State.markEntry
  dsimp only
  split <;> [split <;> rfl; rfl]

@[simp] theorem State.markEntry_irqReq (s : State) (n p : Nat) : (s.markEntry n p).irq.irqReq = s.irq.irqReq := by
  unfold State.markEntry
  dsimp only
  split <;> [split <;> rfl; rfl]

theorem State.markEntry_actU (s : State) (n p : Nat) :
    (s.markEntry n p).irq.actU = (s.irq.actU || (decide (s.irq.act = 0) && s.status.u)) := by
  unfold State.markEntry
  dsimp only
  split <;> [split <;> rfl; rfl]

theorem State.markEntry_hint (s : State) (n p : Nat) :
    (s.markEntry n p).irq.hint = if n < s.cfg.numHwIrq then s.irq.hint else 0 := by
  unfold State.markEntry
  dsimp only
  split <;> [split <;> rfl; rfl]

/-- The poll is one of six cases (43_interrupts R249, R252, R259): it does nothing, or refuses, or takes the selected
source on one of the two paths. -/
theorem State.poll_cases (s : State) (pc : Word) :
    s.poll pc = s ∨
    ∃ n, s.gateOpen = true ∧ s.select = some n ∧ (s.source n).prio.toNat < s.currentPrio ∧
      (s.isFast (s.source n).prio.toNat = true ∧
          s.poll pc = (s.markEntry n (s.source n).prio.toNat).fastEntry n pc ∨
        s.isFast (s.source n).prio.toNat = false ∧ s.frameWouldBeLost = true ∧
          s.poll pc = s.refuse .userEntryWhileActive ∨
        s.isFast (s.source n).prio.toNat = false ∧ s.frameWouldBeLost = false ∧
          s.poll pc = (s.markEntry n (s.source n).prio.toNat).regularEntry n pc) := by
  unfold State.poll
  by_cases hg : s.gateOpen = true
  · rw [if_pos hg]
    cases hs : s.select with
    | none => exact .inl rfl
    | some n =>
      dsimp only
      by_cases hp : (s.source n).prio.toNat < s.currentPrio
      · rw [if_pos hp]
        refine .inr ⟨n, hg, rfl, hp, ?_⟩
        unfold State.enterInterrupt
        cases hf : s.isFast (s.source n).prio.toNat <;> cases hl : s.frameWouldBeLost <;> simp
      · rw [if_neg hp]; exact .inl rfl
  · rw [if_neg hg]; exact .inl rfl

/-- Neither an entry nor a poll that takes none changes the parameters or the TLB (43_interrupts R250, R251). -/
theorem State.poll_cfg_tlb (s : State) (pc : Word) : (s.poll pc).cfg = s.cfg ∧ (s.poll pc).tlb = s.tlb := by
  obtain h | ⟨n, -, -, -, ⟨-, h⟩ | ⟨-, -, h⟩ | ⟨-, -, h⟩⟩ := s.poll_cases pc <;> rw [h]
  · exact ⟨rfl, rfl⟩
  · rw [State.markEntry_eq]; simp [State.fastEntry]
  · exact ⟨rfl, rfl⟩
  · rw [State.markEntry_eq]; simp [State.regularEntry]

/-- The gate is open exactly when none of its five conditions closes it (43_interrupts R242). -/
theorem State.gateOpen_iff {s : State} :
    s.gateOpen = true ↔ s.status.h = false ∧ s.status.ie = true ∧ s.status.ae = false ∧ s.status.de = false ∧
      s.irq.irqReq = true := by
  simp [State.gateOpen, and_assoc]

end Sys2Proof.Machine
end

