-- ==== Sys2Proof/Laws/Mpu.lean ====
section
/-! SUPPORT. The MPU's regions: what a write of one changes (42_mpu R199), and when one answers (R191). -/

namespace Sys2Proof.Machine

theorem State.region_writeRegion_self (s : State) {i : Nat} (r : Region) (h : i < 16) :
    (s.writeRegion i r).region i = r := by
  simp only [State.writeRegion, State.region, State.flush]
  exact getD_setIfInBounds_self _ _ _ h

theorem State.region_writeRegion_other (s : State) {i j : Nat} (r : Region) (h : j ≠ i) :
    (s.writeRegion i r).region j = s.region j := by
  simp only [State.writeRegion, State.region, State.flush]
  exact getD_setIfInBounds_other _ _ _ h

/-- A region register's write changes the regions and the flush list alone. -/
theorem State.writeRegion_eq (s : State) (i : Nat) (r : Region) :
    s.writeRegion i r =
      { s with mpu.regions := (s.writeRegion i r).mpu.regions, out.flushOut := s.out.flushOut ++ [.all] } := rfl

/-- A region answers when it is valid and covers the address (42_mpu R191). -/
theorem State.regionAnswers_iff {s : State} {a : Word} {i : Nat} :
    s.regionAnswers a i = true ↔ (s.region i).valid = true ∧ covers (s.region i) a = true := by
  simp [State.regionAnswers]

/-- The number of regions fits the slots that hold them (00_scope R2). -/
theorem Config.wf_regions {cfg : Config} (h : cfg.wf = true) : cfg.mpuRegions ≤ 16 := by
  simp only [Config.wf, Bool.and_eq_true, decide_eq_true_eq] at h
  have hr := h.1.1.1.1.1.1.1.1.1.2
  simp at hr
  omega

/-- A region number recorded in `MPU_ECR` is below 32 (30_encoding R118). -/
theorem State.findRegion_le (s : State) (a : Word) : s.findRegion a ≤ s.cfg.mpuRegions := by
  unfold State.findRegion
  cases h : (List.range s.cfg.mpuRegions).find? (s.regionAnswers a) with
  | none => simp
  | some i =>
    have := List.mem_of_find?_eq_some h
    simp at this
    simp; omega

end Sys2Proof.Machine
end

