-- ==== Sys2Proof/Laws/PerInstr.lean ====
section
/-! SUPPORT. Statements about every request, one lemma for each constructor of `Instr`: the header word a request is
encoded with is a legal one (30_encoding R91, R92). -/

namespace Sys2Proof.Laws.EncodeHeader

/-- A legal header word: bits 31:6 are 0, the request code is one of the table, and a `KIND` stands exactly in a
`TRANSLATE` (30_encoding R91, R92, R104). -/
def legal (header : Word) : Bool :=
  header.extractLsb' 6 26 == 0 && decide (0x1 ≤ (header.extractLsb' 0 4).toNat) &&
    decide ((header.extractLsb' 0 4).toNat ≤ 0xB) &&
    (header.extractLsb' 4 2 != 0) == (header.extractLsb' 0 4 == 0x1)

/-- A request is encoded with a legal header, in every implementation. -/
def Statement (i : Instr) : Prop := ∀ cfg : Config, legal (encode cfg i).header = true

theorem translateFetch (vaddr pc : Word) : Statement (.translateFetch vaddr pc) :=
  fun _ => (by decide : legal (headerOf 0x1 1) = true)

theorem translateRead (vaddr pc : Word) : Statement (.translateRead vaddr pc) :=
  fun _ => (by decide : legal (headerOf 0x1 2) = true)

theorem translateWrite (vaddr pc : Word) : Statement (.translateWrite vaddr pc) :=
  fun _ => (by decide : legal (headerOf 0x1 3) = true)

theorem auxRead (id pc : Word) : Statement (.auxRead id pc) :=
  fun _ => (by decide : legal (headerOf 0x2 0) = true)

theorem auxWrite (id wdata pc : Word) : Statement (.auxWrite id wdata pc) :=
  fun _ => (by decide : legal (headerOf 0x3 0) = true)

theorem irqPoll (pc : Word) : Statement (.irqPoll pc) :=
  fun _ => (by decide : legal (headerOf 0x4 0) = true)

theorem ret : Statement .ret :=
  fun _ => (by decide : legal (headerOf 0x5 0) = true)

theorem raise (vector cause param : Byte) (faddr pc retPc : Word) : Statement (.raise vector cause param faddr pc retPc) :=
  fun _ => (by decide : legal (headerOf 0x6 0) = true)

theorem reset : Statement .reset :=
  fun _ => (by decide : legal (headerOf 0x7 0) = true)

theorem tlbFlushExt : Statement .tlbFlushExt :=
  fun _ => (by decide : legal (headerOf 0x8 0) = true)

theorem statusRead : Statement .statusRead :=
  fun _ => (by decide : legal (headerOf 0x9 0) = true)

theorem statusWrite (wdata : Word) : Statement (.statusWrite wdata) :=
  fun _ => (by decide : legal (headerOf 0xA 0) = true)

theorem line (src : Byte) (level : Bool) : Statement (.line src level) :=
  fun _ => (by decide : legal (headerOf 0xB 0) = true)

theorem tlbcmdWrite (pc : Word) : Statement (.tlbcmdWrite pc) :=
  fun _ => (by decide : legal (headerOf 0x3 0) = true)

theorem tlbcmdRead (pc : Word) : Statement (.tlbcmdRead pc) :=
  fun _ => (by decide : legal (headerOf 0x3 0) = true)

theorem tlbcmdWriteNi (pc : Word) : Statement (.tlbcmdWriteNi pc) :=
  fun _ => (by decide : legal (headerOf 0x3 0) = true)

theorem tlbcmdInsert (pc : Word) : Statement (.tlbcmdInsert pc) :=
  fun _ => (by decide : legal (headerOf 0x3 0) = true)

theorem tlbcmdDelete (pc : Word) : Statement (.tlbcmdDelete pc) :=
  fun _ => (by decide : legal (headerOf 0x3 0) = true)

end Sys2Proof.Laws.EncodeHeader
end

