-- ==== Sys2Proof/Laws/Step.lean ====
section
/-! SUPPORT. A request as a function of the state whose outputs are cleared, so that a proof about `exec` is a proof
about one state transformation (30_encoding R93). -/

namespace Sys2Proof.Machine

/-- What a request makes of a state whose outputs are cleared. -/
def effect (i : Instr) (s : State) : State :=
  match i with
  | .translateFetch vaddr pc => s.translate .fetch vaddr pc
  | .translateRead vaddr pc => s.translate .read vaddr pc
  | .translateWrite vaddr pc => s.translate .write vaddr pc
  | .auxRead id pc => s.kernelOnly pc fun s => s.auxReadKernel id pc
  | .auxWrite id wdata pc => s.kernelOnly pc fun s => s.auxWriteKernel id wdata pc
  | .irqPoll pc => s.poll pc
  | .ret => s.return
  | .raise vector cause param faddr pc retPc => s.raise vector cause param faddr pc retPc
  | .reset => s.doReset
  | .tlbFlushExt => { s with tlb.entries := invalidateAll s.tlb.entries }.flush .all
  | .statusRead => s.answer (packStatus s.status)
  | .statusWrite wdata => { s with status := unpackStatus s.cfg wdata }
  | .line src level => s.drive src level
  | .tlbcmdWrite pc => s.kernelOnly pc fun s => s.tlbCommand .write
  | .tlbcmdRead pc => s.kernelOnly pc fun s => s.tlbCommand .read
  | .tlbcmdWriteNi pc => s.kernelOnly pc fun s => s.tlbCommand .writeNi
  | .tlbcmdInsert pc => s.kernelOnly pc fun s => s.tlbCommand .insert
  | .tlbcmdDelete pc => s.kernelOnly pc fun s => s.tlbCommand .delete

/-- A request's meaning is its effect on the state with the outputs cleared. -/
theorem exec_effect (i : Instr) (s : State) : exec i s = .next (effect i s.clearOut) := by
  cases i <;> rfl

/-- The state a request leads to. -/
theorem exec_eq_next {i : Instr} {s t : State} : exec i s = .next t ↔ t = effect i s.clearOut := by
  rw [exec_effect]
  exact ⟨fun h => (Host.Outcome.next.inj h).symm, fun h => h ▸ rfl⟩

/-- A step is idle, or performs the request in front, or refuses it. -/
theorem step_cases {s t : State} (h : step s = .next t) :
    s.inbox = [] ∧ t = s ∨
    ∃ r rest, s.inbox = r :: rest ∧
      ((∃ i, decode s.cfg r = .instr i ∧ exec i { s with inbox := rest } = .next t) ∨
        ∃ reason, decode s.cfg r = .rejected reason ∧ t = { s with inbox := rest }.refuse reason) := by
  unfold step at h
  cases hs : s.inbox with
  | nil => rw [hs] at h; exact .inl ⟨rfl, (Host.Outcome.next.inj h).symm⟩
  | cons r rest =>
    have ht : s.take = { s with inbox := rest } := by simp [State.take, hs]
    rw [hs] at h
    refine .inr ⟨r, rest, rfl, ?_⟩
    dsimp only at h
    cases hd : decode s.cfg r with
    | instr i => rw [hd] at h; exact .inl ⟨i, rfl, ht ▸ h⟩
    | rejected reason =>
      rw [hd] at h
      exact .inr ⟨reason, rfl, ht ▸ (Host.Outcome.next.inj h).symm⟩

end Sys2Proof.Machine
end

