-- ==== Sys2Proof/Laws/Tlb.lean ====
section
/-! SUPPORT. The TLB's array and victim pointers: what one update of a way changes, and what a list of invalidations
does (41_tlb R141, R143, R156, R160, R161). -/

namespace Sys2Proof.Machine

/-- The set of an entry index is the one it was made of (41_tlb R152). -/
@[simp] theorem indexSet_entryIndex (st : BitVec 8) (way : BitVec 2) : indexSet (entryIndex st way) = st := by
  unfold indexSet entryIndex
  ext k hk
  simp only [BitVec.getElem_extractLsb', BitVec.getLsbD_append]
  rw [if_neg (by omega), BitVec.getLsbD_eq_getElem (by omega)]
  congr 1; omega

/-- The way of an entry index is the one it was made of (41_tlb R152). -/
@[simp] theorem indexWay_entryIndex (st : BitVec 8) (way : BitVec 2) : indexWay (entryIndex st way) = way := by
  unfold indexWay entryIndex
  ext k hk
  simp only [BitVec.getElem_extractLsb', BitVec.getLsbD_append]
  rw [if_pos (by omega), BitVec.getLsbD_eq_getElem (by omega)]
  congr 1; omega

/-- An entry index names one set and one way (10_state R35). -/
theorem entryIndex_inj {st st' : BitVec 8} {way way' : BitVec 2} :
    entryIndex st way = entryIndex st' way' ↔ st = st' ∧ way = way' := by
  refine ⟨fun h => ⟨?_, ?_⟩, fun ⟨a, b⟩ => a ▸ b ▸ rfl⟩
  · simpa using congrArg indexSet h
  · simpa using congrArg indexWay h

/-- An index is made of its set and its way. -/
theorem entryIndex_split (i : BitVec 10) : entryIndex (indexSet i) (indexWay i) = i := by
  unfold entryIndex indexSet indexWay
  ext k hk
  simp only [BitVec.getElem_append, BitVec.getElem_extractLsb']
  split
  · rw [BitVec.getLsbD_eq_getElem (by omega)]; simp
  · rw [BitVec.getLsbD_eq_getElem (by omega)]; congr 1; omega

@[simp] theorem State.entry_setEntry_self (s : State) (st : BitVec 8) (way : BitVec 2) (e : TlbEntry) :
    (s.setEntry st way e).entry st way = e := by
  simp [State.entry, State.setEntry, Vector.get_eq_getElem]

theorem State.entry_setEntry_other (s : State) {st st' : BitVec 8} {way way' : BitVec 2} (e : TlbEntry)
    (h : ¬(st' = st ∧ way' = way)) : (s.setEntry st way e).entry st' way' = s.entry st' way' := by
  have hi : (entryIndex st way).toNat ≠ (entryIndex st' way').toNat := fun he =>
    h (entryIndex_inj.1 (BitVec.eq_of_toNat_eq he.symm))
  simp [State.entry, State.setEntry, Vector.get_eq_getElem, Vector.getElem_set_ne, hi]

/-- What a slot holds after one is written. -/
theorem State.entry_setEntry (s : State) (st st' : BitVec 8) (way way' : BitVec 2) (e : TlbEntry) :
    (s.setEntry st way e).entry st' way' = if st' = st ∧ way' = way then e else s.entry st' way' := by
  split
  · next h => obtain ⟨rfl, rfl⟩ := h; simp
  · next h => exact s.entry_setEntry_other e h

/-- What a slot holds after one is invalidated. -/
theorem State.entry_invalidate (s : State) (st st' : BitVec 8) (way way' : BitVec 2) :
    (s.invalidate st way).entry st' way' =
      if st' = st ∧ way' = way then { s.entry st' way' with v := false } else s.entry st' way' := by
  unfold State.invalidate
  rw [State.entry_setEntry]
  split
  · next h => rw [h.1, h.2]
  · rfl

/-- What a slot holds after a list of ways is invalidated (41_tlb R156, R160). -/
theorem State.entry_invalidateWays (s : State) (st st' : BitVec 8) (ways : List (BitVec 2)) (way' : BitVec 2) :
    (s.invalidateWays st ways).entry st' way' =
      if st' = st ∧ way' ∈ ways then { s.entry st' way' with v := false } else s.entry st' way' := by
  unfold State.invalidateWays
  induction ways generalizing s with
  | nil => simp
  | cons w ws ih =>
    rw [List.foldl_cons, ih, State.entry_invalidate]
    by_cases h1 : st' = st <;> by_cases h2 : way' = w <;> by_cases h3 : way' ∈ ws <;> simp [h1, h2, h3]

/-- Writing one slot changes the array alone. -/
theorem State.setEntry_eq (s : State) (st : BitVec 8) (way : BitVec 2) (e : TlbEntry) :
    s.setEntry st way e = { s with tlb.entries := (s.setEntry st way e).tlb.entries } := rfl

/-- Invalidating ways changes the array alone. -/
theorem State.invalidateWays_eq (s : State) (st : BitVec 8) (ways : List (BitVec 2)) :
    s.invalidateWays st ways = { s with tlb.entries := (s.invalidateWays st ways).tlb.entries } := by
  unfold State.invalidateWays
  induction ways generalizing s with
  | nil => rfl
  | cons w ws ih => rw [List.foldl_cons, ih]; rfl

@[simp] theorem State.victim_setEntry (s : State) (st st' : BitVec 8) (way : BitVec 2) (e : TlbEntry) :
    (s.setEntry st way e).victim st' = s.victim st' := rfl

/-- The victim pointer of a set moves on by one, modulo 4; the other sets' stay (41_tlb R161). -/
theorem State.victim_advanceVictim (s : State) (st st' : BitVec 8) :
    (s.advanceVictim st).victim st' = if st' = st then s.victim st + 1 else s.victim st' := by
  unfold State.advanceVictim State.victim
  split
  · next h => subst h; simp [Vector.get_eq_getElem]
  · next h =>
    have hi : st.toNat ≠ st'.toNat := fun he => h (BitVec.eq_of_toNat_eq he.symm)
    simp [Vector.get_eq_getElem, Vector.getElem_set_ne, hi]

@[simp] theorem State.entry_advanceVictim (s : State) (st st' : BitVec 8) (way : BitVec 2) :
    (s.advanceVictim st).entry st' way = s.entry st' way := rfl

/-- A way is found exactly when it matches (41_tlb R143). -/
@[simp] theorem State.mem_matches {s : State} {vpn : Word} {asid : Byte} {way : BitVec 2} :
    way ∈ s.matches vpn asid ↔ s.wayMatches vpn asid way = true := by
  unfold State.matches
  rw [List.mem_filter]
  have hw : ∀ w : BitVec 2, w ∈ ([0, 1, 2, 3] : List (BitVec 2)) := by decide
  exact ⟨And.right, fun h => ⟨hw way, h⟩⟩

/-- A lookup reads the parameters, the mask and the entries of one set, and nothing else. -/
theorem State.matches_congr {s t : State} (hc : t.cfg = s.cfg) (h0 : t.tlb.sasid0 = s.tlb.sasid0)
    (h1 : t.tlb.sasid1 = s.tlb.sasid1) {vpn : Word} (asid : Byte)
    (he : ∀ way, t.entry (tlbSet vpn) way = s.entry (tlbSet vpn) way) : t.matches vpn asid = s.matches vpn asid := by
  unfold State.matches
  congr 1
  funext way
  simp [State.wayMatches, hc, h0, h1, he]

/-- An invalid entry matches nothing (41_tlb R141). -/
theorem entryMatches_invalid {cfg : Config} {m1 m0 vpn : Word} {asid : Byte} {e : TlbEntry} (h : e.v = false) :
    entryMatches cfg m1 m0 e vpn asid = false := by
  simp [entryMatches, h]

/-- Every entry is invalid after a full invalidation, and otherwise as it was (41_tlb R165). -/
theorem get_invalidateAll (entries : Vector TlbEntry 1024) (i : Fin 1024) :
    (invalidateAll entries).get i = { entries.get i with v := false } := by
  simp [invalidateAll]

/-- What a slot holds at the end of an INSERT (41_tlb R161). -/
theorem State.entry_insertAt (s : State) (st st' : BitVec 8) (way way' : BitVec 2) :
    (s.insertAt st way).entry st' way' =
      if st' = st ∧ way' = way then toEntry s.cfg s.tlb.pd0 s.tlb.pd1 else s.entry st' way' :=
  State.entry_setEntry s st st' way way' _

/-- The victim pointers at the end of an INSERT (41_tlb R161). -/
theorem State.victim_insertAt (s : State) (st st' : BitVec 8) (way : BitVec 2) :
    (s.insertAt st way).victim st' = if st' = st then s.victim st + 1 else s.victim st' :=
  State.victim_advanceVictim _ st st'

/-- An INSERT of a valid mapping, whole (41_tlb R158 to R161): the matches but the lowest are invalidated, and the
lowest, or the victim where there is none, is written. -/
theorem State.tlbInsert_valid {s : State} (h : pd0V s.tlb.pd0 = true) :
    s.tlbInsert =
      (((s.flush (.page (pd0Vpn s.cfg s.tlb.pd0) (pd0Asid s.tlb.pd0))).setEvents false false).invalidateWays s.pd0Set
        s.search.tail).insertAt s.pd0Set (s.search.headD (s.victim s.pd0Set)) := by
  unfold State.tlbInsert
  dsimp only
  rw [if_pos (by exact h)]
  cases s.search with
  | nil => rfl
  | cons way others => rfl

/-- An INSERT of an invalid mapping, whole (41_tlb R159). -/
theorem State.tlbInsert_invalid {s : State} (h : pd0V s.tlb.pd0 = false) :
    s.tlbInsert = (s.flush (.page (pd0Vpn s.cfg s.tlb.pd0) (pd0Asid s.tlb.pd0))).setEvents false true := by
  unfold State.tlbInsert
  dsimp only
  exact if_neg fun h' => Bool.false_ne_true (h.symm.trans h')

/-- A request to the command register in kernel mode performs the command; in user mode it raises PrivilegeViolation
(10_state R51, 41_tlb R150). -/
theorem State.kernelOnly_kernel {s : State} (h : s.status.u = false) (pc : Word) (act : State → State) :
    s.kernelOnly pc act = act s := by
  simp [State.kernelOnly, h]

theorem State.kernelOnly_user {s : State} (h : s.status.u = true) (pc : Word) (act : State → State) :
    s.kernelOnly pc act = s.raise vecPrivilegeV 0 0 pc pc pc := by
  simp [State.kernelOnly, State.raiseAt, h]

end Sys2Proof.Machine
end

