-- ==== Sys2Proof/Tests/Slice0.lean ====
section
/-! SUPPORT. Tests of the model. Expected values come from the spec: its worked examples and vectors
(95_test_vectors, named in each comment) or hand calculation from a rule. `test_meets_…` shows a concrete state and
operands that meet the hypotheses of the obligation it names. -/

namespace Sys2Proof.Tests

set_option Elab.async false -- many kernel evaluations at a time would each hold a thread

open Sys2Proof Sys2Proof.Machine

/-! ### Helpers -/

/-- A property of the state a request leads to. -/
def holds (i : Instr) (s : State) (p : State → Bool) : Bool :=
  match exec i s with
  | .next t => p t
  | _ => false

/-- The id of a register in the implementation of the vectors. -/
def id (r : AuxReg) : Word := Config.vectors.auxId r

/-- The reset state with a word of memory. -/
def withWord (a x : Word) (s : State) : State := { s with mem := s.mem.writeWord .little a x }

/-- The reset state with the ordinary TLB entry of vector TL1 in set 1, way 0, for address space 5, and the MMU on. -/
def mapped : State :=
  { State.reset.setEntry 1 0 (toEntry Config.vectors 0x00002205 0x00080180) with
    tlb.pid := { t := true, asid := 5 } }

/-- `mapped` with the global entry of vector TL10 in way 1: two matches for address space 5. -/
def twice : State :=
  { mapped.setEntry 1 1 (toEntry Config.vectors 0x00002300 0x00080180) with tlb.pid := { t := true, asid := 5 } }

/-- The MMU on with the super page of vector TL18 in set 5. -/
def superPage : State :=
  { State.reset.setEntry 5 0 (toEntry Config.vectors 0x0000A700 0) with tlb.pid := { t := true, asid := 5 } }

/-- The MPU of section L2.3: region 0 is `[0x1000, 0x2000)` with `UR`, and `MPU_EN = 0x400001C0`. -/
def guarded : State :=
  let s := State.reset.writeRegion 0 (unpackRdp 0x00001620 (unpackRdb 0x00001001 Region.reset))
  { s with mpu.en := true, mpu.dperm := 0b111000, out := Outputs.none }

/-- User mode. -/
def user (s : State) : State := { s with status.u := true }

/-- Kernel mode with an exception active. -/
def handling : State := { State.reset with status.ae := true, status.l := true }

/-- Section L2.4's start: interrupts on, `irq_req` high, `SP = 0x10000`. -/
def listening : State :=
  { State.reset.writeReg regSp 0x10000 with status.ie := true, irq.irqReq := true }

/-- Sources 1 and 3 pending at priority 4 (R249's example, vector IR4). -/
def waiting : State :=
  let s := (listening.setSource 1 { IrqSource.reset Config.vectors 1 with prio := 4 }).setSource 3
    { IrqSource.reset Config.vectors 3 with prio := 4 }
  (s.setLine 1 true).setLine 3 true

/-- Source 0 pending at priority 0 (vector IR12). -/
def urgent : State :=
  (listening.setSource 0 { IrqSource.reset Config.vectors 0 with prio := 0 }).setLine 0 true

/-- Vector IR17: user mode, `SP = 0x7000`, `USER_SP = 0x9000`, source 1 pending at priority 4. -/
def waitingUser : State :=
  { waiting.writeReg regSp 0x7000 with status.u := true, cpu.userSp := 0x9000 }

/-- `IRQ_SELECT` names source 1. -/
def selecting : State := { State.reset with irq.select := 17 }

/-- A request in front of the inbox. -/
def asked (r : Request) : State := State.reset.offer r

/-! ### Which terms are well formed -/

theorem test_wf_refuses_a_command_written_as_auxWrite :
    WellFormed Config.vectors (.auxWrite (id .tlbcommand) 0x7 0x1004) = false := by decide +kernel
theorem test_wf_accepts_a_write_of_no_command :
    WellFormed Config.vectors (.auxWrite (id .tlbcommand) 0x3 0x1004) = true := by decide +kernel
theorem test_wf_refuses_commands_without_a_register :
    [Instr.tlbcmdWrite 0, .tlbcmdRead 0, .tlbcmdWriteNi 0, .tlbcmdInsert 0, .tlbcmdDelete 0].all
      (fun i => !WellFormed { Config.vectors with auxIds := [] } i) = true := by decide
theorem test_wf_accepts_the_commands :
    [Instr.tlbcmdWrite 0, .tlbcmdRead 0, .tlbcmdWriteNi 0, .tlbcmdInsert 0, .tlbcmdDelete 0].all
      (WellFormed Config.vectors) = true := by decide +kernel

/-! ### Decoding: words written out from 30_encoding R91, R92, R104, R113, the header in bits 31:0 -/

theorem test_decode_translateFetch :
    decodeTableWord 96 0x00000040_80000000_00000011 = some (.translateFetch 0x80000000 0x40) := by decide +kernel
theorem test_decode_translateRead :
    decodeTableWord 96 0x00000104_00004010_00000021 = some (.translateRead 0x4010 0x104) := by decide +kernel
theorem test_decode_translateWrite :
    decodeTableWord 96 0x00000108_00004010_00000031 = some (.translateWrite 0x4010 0x108) := by decide +kernel
theorem test_decode_auxRead :
    decodeTableWord 96 0x00001008_00000403_00000002 = some (.auxRead 0x403 0x1008) := by decide +kernel
theorem test_decode_auxWrite :
    decodeTableWord 128 0x00000100_80000007_00000468_00000003 = some (.auxWrite 0x468 0x80000007 0x100) := by
  decide +kernel
theorem test_decode_irqPoll : decodeTableWord 64 0x00000400_00000004 = some (.irqPoll 0x400) := by decide +kernel
theorem test_decode_ret : decodeTableWord 32 0x00000005 = some .ret := by decide +kernel
theorem test_decode_raise :
    decodeTableWord 224 0x00000204_00000200_00000055_00000008_00000002_00000009_00000006 =
      some (.raise 9 2 8 0x55 0x200 0x204) := by decide +kernel
theorem test_decode_reset : decodeTableWord 32 0x00000007 = some .reset := by decide +kernel
theorem test_decode_tlbFlushExt : decodeTableWord 32 0x00000008 = some .tlbFlushExt := by decide +kernel
theorem test_decode_statusRead : decodeTableWord 32 0x00000009 = some .statusRead := by decide +kernel
theorem test_decode_statusWrite :
    decodeTableWord 64 0x80000080_0000000A = some (.statusWrite 0x80000080) := by decide +kernel
theorem test_decode_line : decodeTableWord 96 0x00000001_000000FF_0000000B = some (.line 0xFF true) := by
  decide +kernel
theorem test_decode_tlbcmdWrite :
    decodeTableWord 128 0x00001004_00000001_00000465_00000003 = some (.tlbcmdWrite 0x1004) := by decide +kernel
theorem test_decode_tlbcmdRead :
    decodeTableWord 128 0x00001004_00000002_00000465_00000003 = some (.tlbcmdRead 0x1004) := by decide +kernel
theorem test_decode_tlbcmdWriteNi :
    decodeTableWord 128 0x00001004_00000005_00000465_00000003 = some (.tlbcmdWriteNi 0x1004) := by decide +kernel
theorem test_decode_tlbcmdInsert :
    decodeTableWord 128 0x00001004_00000007_00000465_00000003 = some (.tlbcmdInsert 0x1004) := by decide +kernel
theorem test_decode_tlbcmdDelete :
    decodeTableWord 128 0x00001004_00000008_00000465_00000003 = some (.tlbcmdDelete 0x1004) := by decide +kernel

/-- R91, R104: code 0, codes 0xC to 0xF, a reserved bit, a `KIND` outside `TRANSLATE`, and `KIND = 0` name nothing. -/
theorem test_decode_rejects_reserved_headers :
    [0x0, 0xC, 0xD, 0xE, 0xF, 0x45, 0x15, 0x80000021, 0x1].all
      (fun w => (decodeTableWord 32 w).isNone) = true := by decide +kernel
theorem test_decode_names_the_reserved_kind :
    decode Config.vectors (Request.bare 0x1) = .rejected .reservedAccessKind ∧
      decode Config.vectors (Request.bare 0x15) = .rejected .reservedRequest := by decide

/-! ### One step of each request -/

/-- Vector RT3: row 9 of the router, user fetch. -/
theorem test_translateFetch_row9 :
    holds (.translateFetch 0x80000000 0x40) (user { mapped with mem := [] })
      (fun t => t.exc.ecr == 0x00070100 && t.exc.efa == 0x40 && t.out.paddr.isNone) = true := by decide +kernel
/-- Vector TL3: the kernel may read the page and not fetch from it. -/
theorem test_translateFetch_protected :
    holds (.translateFetch 0x2010 0x90) mapped (fun t => t.exc.ecr == 0x00060108 && t.exc.efa == 0x2010) = true := by
  decide +kernel
/-- Vectors TL2 and TL9: a hit on the own ASID, and one on a shared entry by `SASID` bit 33. -/
theorem test_translateRead_hit :
    holds (.translateRead 0x2010 0) mapped
        (fun t => t.out.paddr == some 0x00080010 && t.out.permOut == some 0b110 && t.out.cacheable == some false) =
          true ∧
      holds (.translateRead 0x8000 0)
        (user { State.reset.setEntry 4 0 (toEntry Config.vectors 0x00009221 0x00000020) with
          tlb.pid := { t := true, asid := 6 }, tlb.sasid1 := 2 })
        (fun t => t.out.paddr == some 0 && t.out.permOut == some 0b100) = true := by decide +kernel
/-- Vectors TL5 and TL10: a miss stages `PD0`, two matches raise MachineCheck. -/
theorem test_translateRead_faults :
    holds (.translateRead 0x2010 0x94) { mapped with tlb.pid.asid := 6 }
        (fun t => t.exc.ecr == 0x00050200 && t.exc.efa == 0x2010 && t.tlb.pd0 == 0x2206) = true ∧
      holds (.translateRead 0x2010 0x94) twice (fun t => t.exc.ecr == 0x00030200 && t.exc.efa == 0x94) = true := by
  decide +kernel
/-- Section L1.4 with `UR` for `UW`: a violation names the region, and the kernel has the user's rights. -/
theorem test_translateWrite_mpu :
    holds (.translateWrite 0x1004 0x10) guarded
      (fun t => t.exc.ecr == 0x00060304 && t.mpu.ecr == 0x00060300 && t.exc.efa == 0x1004) = true := by decide +kernel
/-- Vector MP2: the default region is marked 16. -/
theorem test_translateWrite_default :
    holds (.translateWrite 0x90000000 0x10) (user guarded)
      (fun t => t.exc.ecr == 0x00060304 && t.mpu.ecr == 0x00060310 && t.exc.efa == 0x90000000) = true := by
  decide +kernel
/-- Vectors MP10 and MP9: a region register reads whole; one past the last raises InstructionError. -/
theorem test_auxRead_region :
    holds (.auxRead (id (.rdp 0)) 0) guarded (fun t => t.out.rdata == some 0x1620) = true ∧
      holds (.auxRead (id (.rdb 16)) 0x50) guarded (fun t => t.exc.ecr == 0x00020000 && t.exc.efa == 0x50) = true := by
  decide +kernel
/-- Vector EX7: an access in user mode. -/
theorem test_auxRead_user :
    holds (.auxRead (id .pid) 0x10) (user State.reset) (fun t => t.exc.ecr == 0x00070000 && t.exc.efa == 0x10) =
      true := by decide +kernel
/-- R233's example: with four levels, writing 9 stores 3. -/
theorem test_auxWrite_clamps_the_priority :
    holds (.auxWrite (id .irqPriority) 9 0) { selecting with cfg.numPrio := 4 } (fun t => (t.source 1).prio == 3) =
      true := by decide +kernel
/-- Vectors TL5 and IR1: a write of `PID` flushes; `IRQ_SELECT` out of range is an error and stays. -/
theorem test_auxWrite_side_effects :
    holds (.auxWrite (id .pid) 0x80000006 0) mapped
        (fun t => t.out.flushOut == [.all] && t.tlb.pid.asid == 6 && (t.entry 1 0).v) = true ∧
      holds (.auxWrite (id .irqSelect) 15 0x20) selecting
        (fun t => t.exc.ecr == 0x00020000 && t.exc.efa == 0x20 && t.irq.select == 17) = true := by decide +kernel
/-- R249's example and vector IR4: source 1 is taken at priority 4, with the frame of R255. -/
theorem test_irqPoll_takes_the_lowest_source :
    holds (.irqPoll 0x100) waiting
      (fun t => t.irq.act == 0x0010 && t.irq.icause.getD 4 0 == 17 && t.readReg regSp == 0xFFF8 &&
        t.word 0xFFFC == 0x80000000 && t.word 0xFFF8 == 0x100) = true := by decide +kernel
/-- Vector IR12: the fast path. -/
theorem test_irqPoll_fast :
    holds (.irqPoll 0x300) urgent
      (fun t => t.exc.statusP0 == 0x80000000 && t.readReg regIlink == 0x300 && packStatus t.status == 0x80010004 &&
        t.irq.act == 1 && t.mem == [] && t.readReg regSp == 0x10000) = true := by decide +kernel
/-- Vector EX3: the return undoes the user's trap. -/
theorem test_ret_from_exception :
    holds .ret
      { State.reset.writeReg regSp 0x9000 with
        status.ae := true, cpu.userSp := 0x7000, exc.erstatus := 0x80000080, exc.eret := 0x204 }
      (fun t => packStatus t.status == 0x80000080 && t.readReg regSp == 0x7000 && t.cpu.userSp == 0x9000 &&
        t.out.nextPc == some 0x204) = true := by decide +kernel
/-- Vector IR20: the frame lies on the user stack. -/
theorem test_ret_from_interrupt_on_the_user_stack :
    holds .ret
      { (withWord 0x6FF8 0x500 (withWord 0x6FFC 0x80000080 State.reset)).writeReg regSp 0x9000 with
        cpu.userSp := 0x6FF8, irq.act := 0x10, irq.actU := true, irq.ctrl.u := true }
      (fun t => t.readReg regSp == 0x7000 && t.cpu.userSp == 0x9000 && packStatus t.status == 0x80000080 &&
        t.out.nextPc == some 0x500 && t.irq.act == 0 && !t.irq.actU) = true := by decide +kernel
/-- Vector EX2: a trap from user mode. -/
theorem test_raise_from_user_mode :
    holds (.raise 9 0 0 0 0x200 0x204)
      { State.reset.writeReg regSp 0x7000 with status.u := true, status.ie := true, cpu.userSp := 0x9000 }
      (fun t => t.exc.ecr == 0x00090000 && t.exc.efa == 0x200 && t.exc.eret == 0x204 &&
        packStatus t.status == 0x26 && t.readReg regSp == 0x9000 && t.cpu.userSp == 0x7000) = true := by decide +kernel
/-- Vector EX8: a double fault. -/
theorem test_raise_twice :
    holds (.raise 4 1 0 0x20 0x30 0x30) { handling with tlb.pid.t := true, mpu.en := true }
      (fun t => t.exc.ecr == 0x00030000 && t.exc.efa == 0x30 && !t.tlb.pid.t && !t.mpu.en &&
        packStatus t.status == 0x24) = true := by decide +kernel
/-- Vector RS1. -/
theorem test_reset_starts_at_the_vector :
    holds .reset (withWord 0 0x100 { waiting with exc.ecr := 7 })
      (fun t => t.out.nextPc == some 0x100 && packStatus t.status == 0 && (t.source 1).prio == 15 &&
        t.exc.ecr == 7 && t.lineOf 1) = true := by decide +kernel
/-- Vector TL20. -/
theorem test_tlbFlushExt :
    holds .tlbFlushExt mapped
      (fun t => !(t.entry 1 0).v && (t.entry 1 0).vpn == 1 && t.out.flushOut == [.all]) = true := by decide +kernel
/-- Vector ST1. -/
theorem test_statusRead :
    holds .statusRead { State.reset with status := unpackStatus Config.vectors 0xFFFFFFFF }
      (fun t => t.out.rdata == some 0x80010FE7) = true := by decide +kernel
/-- R301's example, and vector ST4. -/
theorem test_statusWrite :
    holds (.statusWrite 0x80000080) State.reset
        (fun t => t.status == { Status.zero with u := true, ie := true }) = true ∧
      holds (.statusWrite 0x0F00) State.reset
        (fun t => t.status == { Status.zero with v := true, c := true, n := true, z := true }) = true := by
  decide +kernel
/-- R231's example: the latch of a pulse source. -/
theorem test_line_latches_a_rising_edge :
    holds (.line 2 true) (State.reset.setSource 2 { IrqSource.reset Config.vectors 2 with trig := true })
      (fun t => (t.source 2).plat && t.lineOf 2 && (t.setLine 2 false).pending 2) = true := by decide +kernel
/-- Vector IR21. -/
theorem test_line_refuses_a_software_source :
    holds (.line 9 true) State.reset (fun t => t.refused && t.out.refusal == some .lineNotHardware) = true := by
  decide +kernel
/-- R153's example: `INDEX = 6` is set 1, way 2. -/
theorem test_tlbcmdWrite :
    holds (.tlbcmdWrite 0) { State.reset with tlb.index.index := 6, tlb.pd0 := 0x00202203 }
      (fun t => (t.entry 1 2).vpn == 0x101 && (t.entry 1 2).v && (t.entry 1 2).asid == 3 &&
        t.out.flushOut == [.all]) = true := by decide +kernel
/-- R152's example. -/
theorem test_tlbcmdRead :
    holds (.tlbcmdRead 0)
      { State.reset.setEntry 1 2 { TlbEntry.reset with vpn := 0x101, v := true, asid := 3 } with
        tlb.index := unpackIndex 0x80000006 }
      (fun t => t.tlb.pd0 == 0x00202203 && packIndex t.tlb.index == 6) = true := by decide +kernel
/-- Vector TL21. -/
theorem test_tlbcmdWriteNi :
    holds (.tlbcmdWriteNi 0) { State.reset with tlb.index.index := 4, tlb.pd0 := 0x2205 }
      (fun t => (t.entry 1 0).vpn == 1 && t.out.flushOut == []) = true := by decide +kernel
/-- Vectors TL15 and TL16: a fresh insert, and one over a match. -/
theorem test_tlbcmdInsert :
    holds (.tlbcmdInsert 0) { State.reset with tlb.pd0 := 0x2205, tlb.pd1 := 0x80180 }
        (fun t => packIndex t.tlb.index == 4 && t.victim 1 == 1 && t.out.flushOut == [.page 1 5]) = true ∧
      holds (.tlbcmdInsert 0) { mapped.advanceVictim 1 with tlb.pd0 := 0x2205, tlb.pd1 := 0x80180 }
        (fun t => packIndex t.tlb.index == 4 && t.victim 1 == 2) = true := by decide +kernel
/-- Vector TL14: an invalid mapping is flagged. -/
theorem test_tlbcmdInsert_invalid :
    holds (.tlbcmdInsert 0) { State.reset with tlb.pd0 := 0x2005, tlb.index.index := 5 }
      (fun t => packIndex t.tlb.index == 0x40000005 && t.victim 1 == 0 && t.out.flushOut == [.page 1 5]) = true := by
  decide +kernel
/-- Vectors TL12 and TL13: both matches go, then none is found. -/
theorem test_tlbcmdDelete :
    holds (.tlbcmdDelete 0) { twice with tlb.pd0 := 0x2005, tlb.index.index := 5 }
        (fun t => !(t.entry 1 0).v && !(t.entry 1 1).v && packIndex t.tlb.index == 5) = true ∧
      holds (.tlbcmdDelete 0) { State.reset with tlb.pd0 := 0x2005, tlb.index.index := 5 }
        (fun t => packIndex t.tlb.index == 0x80000005 && t.out.flushOut == []) = true := by decide +kernel
/-- 20_memory R76: what another agent writes before the vector fetch is what the fetch reads. -/
theorem test_other_agents_write_before_the_fetch :
    holds (.raise 6 0 0 0 0 0) { State.reset with otherAgents := [[(0x18, 0x68), (0x19, 0x24)]] }
      (fun t => t.out.nextPc == some 0x2468 && t.otherAgents == []) = true := by decide +kernel

/-! ### Sound states -/

/-- The fields of a sound state that a computation decides, all but the TLB entries' page numbers. -/
def soundBesidesPages (s : State) : Bool :=
  s.mem.wf && s.tlb.pd0 &&& ~~~pd0Mask s.cfg == 0 && s.tlb.pd1 &&& ~~~pd1Mask s.cfg == 0 &&
  (List.range s.cfg.numIrq).all (fun n => decide ((s.source n).prio.toNat < s.cfg.numPrio)) &&
  s.irq.act &&& ~~~actMask s.cfg == 0 && decide (s.irq.ctrl.nr.toNat ≤ maxIrqPairs) && s.irq.hint == 0 &&
  decide (s.cfg.numBanks = 2) && decide (s.exc.ecr.toNat < 2 ^ 24) && decide (s.mpu.ecr.toNat < 2 ^ 24)

theorem vectors_wf : Config.vectors.wf = true := by decide +kernel

/-- A state of the vectors' implementation with the entries of reset is sound if its other fields are. -/
theorem sound_of_checks {s : State} (hc : s.cfg = Config.vectors) (he : s.tlb.entries = Vector.replicate 1024 TlbEntry.reset)
    (h : soundBesidesPages s = true) : s.Inv := by
  simp only [soundBesidesPages, Bool.and_eq_true, beq_iff_eq, decide_eq_true_eq, List.all_eq_true, List.mem_range] at h
  obtain ⟨⟨⟨⟨⟨⟨⟨⟨⟨h1, h2⟩, h3⟩, h4⟩, h5⟩, h6⟩, h7⟩, h8⟩, h9⟩, h10⟩ := h
  exact
    { cfg := hc ▸ vectors_wf, mem := h1, pd0 := h2, pd1 := h3
      pages := fun st way => by
        have : s.entry st way = TlbEntry.reset := by simp [State.entry, he, Vector.get_eq_getElem]
        rw [this]
        exact ⟨Nat.two_pow_pos _, Nat.two_pow_pos _⟩
      prio := h4, act := h5, nr := h6, hint := .inl h7, bank := fun hb => absurd h8 hb, ecr := h9, mpuEcr := h10 }

theorem waiting_sound : waiting.Inv := sound_of_checks rfl rfl (by decide +kernel)
theorem waitingUser_sound : waitingUser.Inv := sound_of_checks rfl rfl (by decide +kernel)
theorem urgent_sound : urgent.Inv := sound_of_checks rfl rfl (by decide +kernel)

/-! ### Witnesses: states and operands that meet the obligations' hypotheses, at the edges of their clauses -/

theorem test_meets_StepPerformsTheDecodedRequest :
    (asked (Request.bare 0x9)).inbox = [Request.bare 0x9] ∧
      decode (asked (Request.bare 0x9)).cfg (Request.bare 0x9) = .instr .statusRead := by decide
theorem test_meets_StepRefusesAnUndecodableHeader :
    (asked (Request.bare 0xC)).inbox = [Request.bare 0xC] ∧
      decode (asked (Request.bare 0xC)).cfg (Request.bare 0xC) = .rejected .reservedRequest := by decide
theorem test_meets_DecodeReturnsTheEncodedRequest :
    WellFormed Config.vectors (.auxWrite (id .tlbcommand) 0x9 0) = true ∧
      WellFormed Config.vectors (.raise 0xFF 0xFF 0xFF 0xFFFFFFFF 0xFFFFFFFF 0xFFFFFFFF) = true := by decide +kernel
theorem test_meets_DecodedRequestsAreWellFormed :
    Config.vectors.wf = true ∧ decode Config.vectors (Request.auxWrite (id .tlbcommand) 0x8 0) = .instr (.tlbcmdDelete 0) :=
  ⟨vectors_wf, by decide +kernel⟩
theorem test_meets_WordsOfTheSpecDecode : Config.vectors.wf = true := vectors_wf
theorem test_meets_RefusalSetsOnlyTheMarkAndNothingClearsIt :
    ∃ t, exec .ret State.reset = .next t ∧ t.out.refusal ≠ none := ⟨_, rfl, by decide +kernel⟩
theorem test_meets_RequestsKeepParametersAndInputs :
    ∃ t, exec .reset waiting = .next t ∧ ∀ src level, Instr.reset ≠ .line src level := ⟨_, rfl, by simp⟩
theorem test_meets_OnlyInterruptEntryWritesMemory :
    waiting.undisturbed ∧ (∀ pc, Instr.ret ≠ .irqPoll pc) ∧ ∃ t, exec .ret waiting = .next t := ⟨rfl, by simp, _, rfl⟩
theorem test_meets_EveryStepKeepsTheStateSound :
    waiting.Inv ∧ ∃ t, step (waiting.withFetchWord 64 0x00000100_00000004) = .next t := ⟨waiting_sound, _, rfl⟩
theorem test_meets_DirectAndFaultArmsOfTranslate :
    State.reset.routeOf 0x7FFFFFFF = .direct ∧ mapped.routeOf 0x80000000 = .direct ∧
      (user mapped).routeOf 0x80000000 = .fault := by decide
theorem test_meets_LookupFindsTheMatchingWaysAscending : State.reset.cfg.sharedTest = .sasidBit := rfl
theorem test_meets_MultipleMatchRaisesMachineCheck :
    twice.routeOf 0x2010 = .useMmu ∧ 2 ≤ (twice.matches (0x2010 >>> twice.cfg.pageBits) twice.tlb.pid.asid).length := by
  decide +kernel
theorem test_meets_MissStagesPd0AndRaises :
    mapped.routeOf 0x7FFFFFFF = .useMmu ∧ mapped.matches (0x7FFFFFFF >>> mapped.cfg.pageBits) mapped.tlb.pid.asid = [] := by
  decide +kernel
theorem test_meets_SuperPageTranslationIsRefused :
    superPage.routeOf 0xA000 = .useMmu ∧
      superPage.matches (0xA000 >>> superPage.cfg.pageBits) superPage.tlb.pid.asid = [0] ∧
      (superPage.entry (((0xA000 : Word) >>> superPage.cfg.pageBits).setWidth 8) 0).sz = true := by decide +kernel
theorem test_meets_TlbHitChecksThePrivilegesOwnBit :
    mapped.routeOf 0x3FFF = .useMmu ∧ mapped.matches (0x3FFF >>> mapped.cfg.pageBits) mapped.tlb.pid.asid = [0] ∧
      mapped.entry (((0x3FFF : Word) >>> mapped.cfg.pageBits).setWidth 8) 0 = toEntry Config.vectors 0x2205 0x80180 ∧
      (toEntry Config.vectors 0x2205 0x80180).sz = false := by decide +kernel
theorem test_meets_MpuCheckDecidesByTheAnsweringRegion :
    guarded.routeOf 0x1FFF = .useMpu ∧ guarded.findRegion 0x1FFF = 0 ∧ (guarded.region 0).perm = 0b000100 ∧
      guarded.routeOf 0x2000 = .useMpu ∧ guarded.findRegion 0x2000 = guarded.cfg.mpuRegions ∧
      guarded.mpu.dperm = 0b111000 := by decide +kernel
/-- The default region: a page that region 0's footprint does not meet, and its own page. -/
theorem test_meets_PageGranularPermissionHoldsForThePage :
    guarded.cfg.wf = true ∧ 16 ≤ guarded.cfg.mpuRegions ∧
      (0x2000 : Word) >>> guarded.cfg.pageBits = 0x3FFF >>> guarded.cfg.pageBits ∧
      guarded.pageGranular 0x2000 (guarded.findRegion 0x2000) = true ∧ guarded.pageGranular 0x1FFF 16 = false :=
  ⟨vectors_wf, by decide, by decide, by decide +kernel, by decide +kernel⟩
theorem test_meets_EntriesAndDescriptorsRoundTrip :
    Config.vectors.wf = true ∧ pageFits Config.vectors 0x7FFFF ∧ pageFits Config.vectors 0 :=
  ⟨vectors_wf, (by decide : (0x7FFFF : Word).toNat < 2 ^ 19), (by decide : (0 : Word).toNat < 2 ^ 19)⟩
theorem test_meets_TlbReadAndWriteUseTheIndexedSlot : mapped.status.u = false := rfl

/-- Three searches: none, one and two matches (41_tlb R155). -/
theorem test_meets_DeleteInvalidatesEveryMatch :
    ({ State.reset with tlb.pd0 := 0x2005 } : State).status.u = false ∧
      ({ State.reset with tlb.pd0 := 0x2005 } : State).matches 1 5 = [] ∧
      ({ mapped with tlb.pd0 := 0x2005 } : State).matches 1 5 = [0] ∧
      ({ twice with tlb.pd0 := 0x2005 } : State).matches 1 5 = [0, 1] ∧
      ((0x2005 : Word) >>> Config.vectors.pageBits = 1 ∧ (0x2005 : Word).setWidth 8 = (5 : Byte)) := by decide +kernel
/-- An insert of an invalid mapping, of one without a match, and of one with two (41_tlb R159, R160). -/
theorem test_meets_InsertWritesTheMatchOrTheVictim :
    twice.status.u = false ∧ (0x2005 : Word).getLsbD 9 = false ∧ (0x2205 : Word).getLsbD 9 = true ∧
      State.reset.matches 1 5 = [] ∧ twice.matches 1 5 = [0, 1] ∧ [0, 1].headD (twice.victim 1) = 0 := by decide +kernel
theorem test_meets_InsertLeavesExactlyOneMatch :
    ({ twice with tlb.pd0 := 0x2205 } : State).status.u = false ∧
      ({ twice with tlb.pd0 := 0x2205 } : State).tlb.pd0.getLsbD 9 = true ∧
      ∃ t, exec (.tlbcmdInsert 0) { twice with tlb.pd0 := 0x2205 } = .next t := ⟨rfl, by decide, _, rfl⟩
/-- Section L1.1's first two inserts into set 1. -/
theorem test_meets_ReplacementIsStrictRoundRobin :
    State.reset.status.u = false ∧ insertsAfresh 0 1 [(0x2205, 0x80180), (0x202205, 0x80180)] State.reset := by
  refine ⟨rfl, by decide, by decide, by decide +kernel, fun t ht => ?_⟩
  obtain rfl := exec_eq_next.1 ht
  exact ⟨by decide, by decide +kernel, by decide +kernel, fun _ _ => trivial⟩
theorem test_meets_OnlyInsertAndResetMoveVictims :
    WellFormed twice.cfg (.tlbcmdDelete 0) = true ∧ (∀ pc, Instr.tlbcmdDelete 0 ≠ .tlbcmdInsert pc) ∧
      Instr.tlbcmdDelete 0 ≠ .reset ∧ ∃ t, exec (.tlbcmdDelete 0) twice = .next t :=
  ⟨by decide +kernel, by simp, by simp, _, rfl⟩
theorem test_meets_UserAuxAccessRaisesPrivilegeViolation : (user mapped).status.u = true := rfl

/-- An unknown id; a region register past the last of eight regions and the last that exists; a per-vector register with
`IRQ_SELECT` below, at the first and at the last source. -/
theorem test_meets_AuxReadAnswersTheRegister :
    selecting.status.u = false ∧ selecting.cfg.auxReg? 0xFFFFFFFF = none ∧
      (∀ r ∈ [AuxReg.rdb 8, .rdp 7, .irqPending, .pid], selecting.cfg.auxReg? (id r) = some r) ∧
      ¬goodAccess { selecting with cfg.mpuRegions := 8 } (.rdb 8) ∧
      goodAccess { selecting with cfg.mpuRegions := 8 } (.rdp 7) ∧
      ¬goodAccess { selecting with irq.select := 15 } .irqPending ∧
      goodAccess { selecting with irq.select := 16 } .irqPending ∧
      goodAccess { selecting with irq.select := 27 } .irqPending ∧
      ¬goodAccess { selecting with irq.select := 28 } .irqPending := by
  refine ⟨rfl, by decide +kernel, by decide +kernel, ?_, ?_, ?_, ?_, ?_, ?_⟩ <;>
    simp [goodAccess, selectsSource, perVectorRegs, selecting, State.reset, Config.vectors]
theorem test_meets_AuxWriteRefusesFaultsOrIgnores :
    selecting.status.u = false ∧ selecting.cfg.auxReg? 0xFFFFFFFF = none ∧
      (∀ r ∈ [AuxReg.tlbcommand, .mpuEcr, .ecr, .icause, .status, .irqPending], selecting.cfg.auxReg? (id r) = some r) ∧
      (0x3 : Word) ∉ [0x1, 0x2, 0x5, 0x7, 0x8] ∧ goodAccess selecting .irqPending ∧ ¬goodAccess State.reset .irqPending := by
  refine ⟨rfl, by decide +kernel, by decide +kernel, by decide, ?_, ?_⟩ <;>
    simp [goodAccess, selectsSource, perVectorRegs, selecting, State.reset, Irq.reset, Config.vectors]
/-- One active level, the lowest and the highest, and none (43_interrupts R239). -/
theorem test_meets_ComputedRegistersReadTheirRule :
    selecting.status.u = false ∧
      (∀ r ∈ [AuxReg.tlbcommand, .irqPulseCancel, .irqPending, .icause, .status, .ecr, .mpuEcr, .irqSelect, .irqHint, .irqPriority,
        .irqCtrl], selecting.cfg.auxReg? (id r) = some r ∧ (r ∈ perVectorRegs → selectsSource selecting)) ∧
      selecting.irq.act = 0 ∧ (0x8000 : BitVec 16).getLsbD 15 = true ∧
      (∀ q < 15, (0x8000 : BitVec 16).getLsbD q = false) ∧ (0x8001 : BitVec 16).getLsbD 0 = true := by
  refine ⟨rfl, ?_, rfl, by decide, by decide, by decide⟩
  intro r hr
  refine ⟨?_, fun _ => ⟨by decide, by decide⟩⟩
  revert r
  decide +kernel
theorem test_meets_PlainAuxWriteStoresItsWord :
    State.reset.status.u = false ∧
      ∀ r ∈ [AuxReg.efa, .eret, .erstatus, .erbta, .ivb, .statusP0, .userSp, .pd0, .pd1, .tlbindex],
        State.reset.cfg.auxReg? (id r) = some r := ⟨rfl, by decide +kernel⟩
theorem test_meets_TranslationRegisterWritesFlushAll :
    State.reset.status.u = false ∧ (15 < State.reset.cfg.mpuRegions ∧ 15 < 16) ∧
      ∀ r ∈ [AuxReg.pid, .sasid0, .sasid1, .mpuEn, .rdb 0, .rdp 15], State.reset.cfg.auxReg? (id r) = some r :=
  ⟨rfl, by decide, by decide +kernel⟩
theorem test_meets_WrittenRegisterReadsBackWithoutReservedBits :
    selecting.cfg.wf = true ∧ selecting.status.u = false ∧ selecting.cfg.auxReg? (id .irqEnable) = some .irqEnable ∧
      goodAccess selecting .irqEnable ∧ storedBits selecting.cfg .irqEnable = some 1 ∧
      selecting.cfg.auxReg? (id (.rdb 15)) = some (.rdb 15) ∧ goodAccess selecting (.rdb 15) ∧
      storedBits selecting.cfg (.rdb 15) = some 0xFFFFFFE1 := by
  refine ⟨vectors_wf, rfl, by decide +kernel, ?_, rfl, by decide +kernel, ?_, rfl⟩ <;>
    simp [goodAccess, selectsSource, perVectorRegs, selecting, State.reset, Config.vectors]
theorem test_meets_IrqRegisterWritesStoreTheirField :
    selecting.cfg.wf = true ∧ selecting.status.u = false ∧ selectsSource selecting ∧
      ∀ r ∈ [AuxReg.irqSelect, .irqHint, .irqCtrl, .irqAct, .irqPriority, .irqEnable, .irqTrigger, .irqPulseCancel],
        selecting.cfg.auxReg? (id r) = some r :=
  ⟨vectors_wf, rfl, ⟨by decide, by decide⟩, by decide +kernel⟩
theorem test_meets_RaiseEntersTheException :
    (user waiting).cfg.wf = true ∧ (user waiting).status.ae = false := ⟨vectors_wf, rfl⟩
theorem test_meets_DoubleFaultEscalates : handling.status.ae = true := rfl
theorem test_meets_ReturnLeavesTheException :
    handling.cfg.wf = true ∧ handling.status.ae = true ∧ waiting.status.ae = false ∧ waiting.irq.act = 0 :=
  ⟨vectors_wf, rfl, rfl, rfl⟩
theorem test_meets_ReturnUndoesExceptionEntry :
    waitingUser.Inv ∧ waitingUser.status.ae = false ∧ ∃ t, exec (.raise 9 0 0 0 0x200 0x204) waitingUser = .next t :=
  ⟨waitingUser_sound, rfl, _, rfl⟩
theorem test_meets_EveryFaultEntersKernelMode :
    ∃ t f, exec (.translateRead 0x4000 0) mapped = .next t ∧ t.out.fault = some f :=
  ⟨_, { vector := 5, cause := 2, param := 0, faddr := 0x4000 }, rfl, by decide +kernel⟩
theorem test_meets_OnlyExceptionsWriteEcr :
    ∃ t, exec (.translateRead 0x2010 0) mapped = .next t ∧ t.out.fault = none := ⟨_, rfl, by decide +kernel⟩
theorem test_meets_OnlyReturnAndStatusWriteEnterUserMode :
    (∃ t, exec (.irqPoll 0) waiting = .next t) ∧ Instr.irqPoll 0 ≠ .ret ∧ (∀ w, Instr.irqPoll 0 ≠ .statusWrite w) ∧
      Instr.irqPoll 0 ≠ .reset ∧ waiting.status.u = false := ⟨⟨_, rfl⟩, by simp, by simp, by simp, rfl⟩
/-- The input `irq_req`, the first source that is no hardware source, and the last that is. -/
theorem test_meets_LineDrivesItsInput :
    State.reset.cfg.wf = true ∧ ((8 : Byte) ≠ 0xFF ∧ State.reset.cfg.numHwIrq ≤ (8 : Byte).toNat) ∧
      (7 : Byte).toNat < State.reset.cfg.numHwIrq := ⟨vectors_wf, by decide, by decide⟩
/-- The gate closed by each condition; no source; a priority equal to the active one; the lost frame. -/
theorem test_meets_PollTakesNothingUnlessUrgent :
    State.reset.irq.irqReq = false ∧ State.reset.status.ie = false ∧ handling.status.ae = true ∧
      listening.select = none ∧
      (waiting.select = some 1 ∧ (0x0010 : BitVec 16).getLsbD 4 = true ∧ 4 ≤ (waiting.source 1).prio.toNat) ∧
      (let s : State := { waitingUser with irq.act := 0x20, irq.ctrl.u := true }
       s.gateOpen = true ∧ s.select = some 1 ∧ (s.source 1).prio.toNat < s.currentPrio ∧
        ¬((s.source 1).prio = 0 ∧ s.cfg.firqPresent = true) ∧ s.status.u = true ∧ s.irq.ctrl.u = true ∧ s.irq.act ≠ 0) := by
  decide +kernel
theorem test_meets_FastEntrySwitchesTheBank :
    urgent.Inv ∧ takes urgent 0 ∧ (urgent.source 0).prio = 0 ∧ urgent.cfg.firqPresent = true :=
  ⟨urgent_sound, ⟨by decide +kernel, by decide +kernel, by decide +kernel⟩, by decide +kernel, rfl⟩
/-- From kernel mode, and from user mode with the frame on either stack. -/
theorem test_meets_RegularEntryPushesTheFrame :
    (waiting.Inv ∧ waiting.undisturbed ∧ takes waiting 1 ∧ waiting.readReg regSp = 0x10000) ∧
      (waitingUser.Inv ∧ waitingUser.undisturbed ∧ takes waitingUser 1 ∧ waitingUser.cpu.userSp = 0x9000 ∧
        waitingUser.status.u = true ∧ waitingUser.irq.ctrl.u = false) ∧
      (takes { waitingUser with irq.ctrl.u := true } 1 ∧
        ¬((waitingUser.source 1).prio = 0 ∧ waitingUser.cfg.firqPresent = true) ∧ waitingUser.irq.act = 0) := by
  refine ⟨⟨waiting_sound, rfl, ⟨?_, ?_, ?_⟩, ?_⟩, ⟨waitingUser_sound, rfl, ⟨?_, ?_, ?_⟩, rfl, rfl, rfl⟩,
    ⟨⟨?_, ?_, ?_⟩, ?_, rfl⟩⟩ <;> decide +kernel
theorem test_meets_NestedEntriesAreMoreUrgent :
    ({ waiting with irq.act := 0x20 } : State).Inv ∧ ∃ t, exec (.irqPoll 0) { waiting with irq.act := 0x20 } = .next t :=
  ⟨sound_of_checks rfl rfl (by decide +kernel), _, rfl⟩
theorem test_meets_FastReturnRestoresTheBank :
    ({ urgent with irq.act := 1 } : State).cfg.wf = true ∧ ({ urgent with irq.act := 1 } : State).status.ae = false ∧
      ({ urgent with irq.act := 1 } : State).irq.act.getLsbD 0 = true ∧
      ({ urgent with irq.act := 1 } : State).cfg.firqPresent = true := ⟨vectors_wf, rfl, by decide, rfl⟩
/-- A return from level 4 alone, with the frame on the user stack, and from the highest level with another active and
the most register pairs, the last register of which is banked. -/
theorem test_meets_RegularReturnPopsTheFrame :
    (let s : State := { waitingUser with irq.act := 0x10, irq.actU := true, irq.ctrl.u := true }
     s.Inv ∧ s.undisturbed ∧ returnsFrom s 4 ∧
      (s.irq.ctrl.u && s.irq.actU && (List.range 16).all fun q => s.irq.act.getLsbD q == decide (q = 4)) = true) ∧
      (let s : State := { waiting with irq.act := 0x8002, irq.ctrl.nr := 14 }
       s.Inv ∧ s.undisturbed ∧ returnsFrom s 1 ∧ s.cfg.numBanks = 2 ∧
        27 < 2 * s.irq.ctrl.nr.toNat ∧ s.cfg.bankedSet.getLsbD 27 = true) := by
  refine ⟨⟨sound_of_checks rfl rfl ?_, rfl, ⟨rfl, ?_, ?_, ?_⟩, ?_⟩, sound_of_checks rfl rfl ?_, rfl,
    ⟨rfl, ?_, ?_, ?_⟩, rfl, ?_, ?_⟩ <;> decide +kernel
/-- The handler that does nothing. -/
theorem test_meets_RegularReturnUndoesItsEntry :
    ∃ t, exec (.irqPoll 0x400) waiting = .next t ∧ HandlerKeptTheFrame waiting t t 0x10000 ∧ takes waiting 1 ∧
      (waiting.irq.act = 0 → waiting.irq.actU = false) ∧ waiting.readReg regSp = 0x10000 := by
  have hc := waiting.clearOut.poll_cfg_tlb 0x400
  have hw : waiting.tlb.entries = Vector.replicate 1024 TlbEntry.reset := rfl
  have ha : (waiting.clearOut.poll 0x400).otherAgents = [] := by decide +kernel
  refine ⟨waiting.clearOut.poll 0x400, exec_effect _ _, ⟨rfl, rfl, ⟨rfl, rfl⟩, rfl, ?_, ⟨rfl, rfl⟩,
    fun _ _ _ _ => rfl, sound_of_checks hc.1 ((congrArg Tlb.entries hc.2).trans hw) ?_, ha⟩, ⟨?_, ?_, ?_⟩,
    fun _ => rfl, ?_⟩
  all_goals decide +kernel
theorem test_meets_ResetSetsWhatTheSpecNames : waiting.cfg.wf = true := vectors_wf
theorem test_meets_BankSelectorAndStackSwitch :
    waiting.cfg.wf = true ∧ waiting.cfg.numBanks = 2 ∧ waiting.cfg.bankedSet.getLsbD (30 : Fin 32).val = true ∧
      (28 : Fin 32) ∈ ([28, 29, 31] : List (Fin 32)) := ⟨vectors_wf, rfl, by decide, by decide⟩
theorem test_meets_PhysicalWordWritesAreExact : Memory.wf [(0, 1), (0xFFFFFFFF, 0x80)] = true := by decide

end Sys2Proof.Tests
end

section
/-! SUPPORT. The requests that the privilege check of auxiliary accesses guards, and what they do in user mode
(10_state R51). -/

namespace Sys2Proof.Machine

/-- The requests that need kernel mode: the auxiliary accesses and the TLB commands (10_state R51, 41_tlb R150). -/
def kernelRequests (id wdata pc : Word) : List Instr :=
  [.auxRead id pc, .auxWrite id wdata pc, .tlbcmdWrite pc, .tlbcmdRead pc, .tlbcmdWriteNi pc, .tlbcmdInsert pc,
    .tlbcmdDelete pc]

/-- Each of these requests is some action behind the privilege check, and nothing outside it. -/
theorem effect_kernelRequests {id wdata pc : Word} {i : Instr} (hi : i ∈ kernelRequests id wdata pc) :
    ∃ act, ∀ s, effect i s = s.kernelOnly pc act := by
  simp only [kernelRequests, List.mem_cons, List.not_mem_nil, or_false] at hi
  obtain rfl | rfl | rfl | rfl | rfl | rfl | rfl := hi <;> exact ⟨_, fun _ => rfl⟩

/-- A request behind the privilege check is, in user mode, the raise of PrivilegeViolation. -/
theorem exec_user_of_effect_eq_kernelOnly {i : Instr} {pc : Word} {act : State → State} {s : State}
    (hact : ∀ s, effect i s = s.kernelOnly pc act) (hu : s.status.u = true) :
    exec i s = exec (.raise vecPrivilegeV 0 0 pc pc pc) s := by
  have huser : s.clearOut.status.u = true := hu
  rw [exec_effect, exec_effect, hact, State.kernelOnly_user huser]
  rfl

/-- Settles O32: every listed request is an action behind the privilege check, which user mode answers with the
raise alone. -/
theorem userAuxAccessRaisesPrivilegeViolation : Obligations.UserAuxAccessRaisesPrivilegeViolation := by
  intro s id wdata pc hu i hi
  obtain ⟨act, hact⟩ := effect_kernelRequests hi
  exact exec_user_of_effect_eq_kernelOnly hact hu

end Sys2Proof.Machine
end

section
/-! SUPPORT. The router as a lookup in its table (40_router R131, R132). -/

namespace Sys2Proof.Machine

/-- The rows of the router's table in the order of their numbers (40_router R132). -/
def routeRows : List Route :=
  [.direct, .direct, .direct, .direct, .useMpu, .useMpu, .useMpu, .useMpu,
    .direct, .fault, .useMmu, .useMmu, .useMpu, .useMpu, .useMmu, .useMmu]

/-- The router answers with the row whose number has its four inputs as binary digits. -/
theorem routeRows_getElem?_rowNumber (mmu mpu inRange user : Bool) :
    routeRows[mmu.toNat * 8 + mpu.toNat * 4 + inRange.toNat * 2 + user.toNat]? = some (route mmu mpu inRange user) := by
  cases mmu <;> cases mpu <;> cases inRange <;> cases user <;> rfl

/-- Settles O13: the router's inputs are the two enable bits, the unsigned comparison with the ceiling and the user
bit, so its answer is their row of the table. -/
theorem routerIsTheFixedTable : Obligations.RouterIsTheFixedTable := by
  intro s vaddr
  exact routeRows_getElem?_rowNumber s.tlb.pid.t s.mpu.en (s.inRange vaddr) s.status.u

end Sys2Proof.Machine
end

section
/-! SUPPORT. What makes a way match, and the shared-ASID test by the two mask registers (41_tlb R141, R142). -/

namespace Sys2Proof.Machine

/-- The match predicate, condition by condition (41_tlb R141). -/
theorem entryMatches_iff {cfg : Config} {m1 m0 vpn : Word} {asid : Byte} {e : TlbEntry} :
    entryMatches cfg m1 m0 e vpn asid = true ↔
      e.v = true ∧ e.vpn = vpn ∧
        (e.g = true ∨ (e.s = true ∧ sharedMatch cfg m1 m0 e.asid = true) ∨ e.asid = asid) := by
  simp [entryMatches, and_assoc, or_assoc]

/-- A lookup answers its ways in ascending order (41_tlb R143). -/
theorem State.matches_ascending (s : State) (vpn : Word) (asid : Byte) :
    (s.matches vpn asid).Pairwise (· < ·) :=
  List.Pairwise.filter _ (by decide)

/-- The default shared test reads `SASID0` for the lower half of the ASIDs modulo 64 and `SASID1` for the upper half
(41_tlb R142). -/
theorem sharedMatch_sasidBit {cfg : Config} (h : cfg.sharedTest = .sasidBit) (m1 m0 : Word) (k : Byte) :
    sharedMatch cfg m1 m0 k =
      if k.toNat % 64 < 32 then m0.getLsbD (k.toNat % 64) else m1.getLsbD (k.toNat % 64 - 32) := by
  simp only [sharedMatch, h]
  exact (BitVec.getLsbD_append ..).trans (by simp)

/-- Settles O15: a lookup filters the ascending list of all ways by the match predicate. -/
theorem lookupFindsTheMatchingWaysAscending : Obligations.LookupFindsTheMatchingWaysAscending := by
  intro s vpn asid
  refine ⟨s.matches_ascending vpn asid, fun way => ?_, fun h => sharedMatch_sasidBit h _ _⟩
  exact State.mem_matches.trans entryMatches_iff

end Sys2Proof.Machine
end

section
/-! SUPPORT. A `TRANSLATE` that the router sends to the MMU, by the number of matching ways (41_tlb R145). -/

namespace Sys2Proof.Machine

/-- A translation routed to the MMU is `tlb_translate` on the state with the outputs cleared (40_router R133). -/
theorem exec_translateInstr_useMmu {s : State} {vaddr : Word} (h : s.routeOf vaddr = .useMmu) (kind : AccessKind)
    (pc : Word) : exec (translateInstr kind vaddr pc) s = .next (s.clearOut.tlbTranslate kind vaddr pc) := by
  have htr : s.translate kind vaddr pc = s.clearOut.tlbTranslate kind vaddr pc := by
    have hr : s.clearOut.routeOf vaddr = .useMmu := h
    simp only [State.translate, hr]
  rw [← htr]
  cases kind <;> rfl

theorem State.tlbTranslate_miss {s : State} {vaddr : Word} (h : s.matches (vpnOf s.cfg vaddr) s.tlb.pid.asid = [])
    (kind : AccessKind) (pc : Word) : s.tlbTranslate kind vaddr pc = s.tlbMiss kind vaddr pc := by
  simp only [State.tlbTranslate, h]

theorem State.tlbTranslate_hit {s : State} {vaddr : Word} {way : BitVec 2}
    (h : s.matches (vpnOf s.cfg vaddr) s.tlb.pid.asid = [way]) (kind : AccessKind) (pc : Word) :
    s.tlbTranslate kind vaddr pc = s.tlbHit (s.entry (tlbSet (vpnOf s.cfg vaddr)) way) kind vaddr pc := by
  simp only [State.tlbTranslate, h]

theorem State.tlbTranslate_multiple {s : State} {vaddr : Word}
    (h : 2 ≤ (s.matches (vpnOf s.cfg vaddr) s.tlb.pid.asid).length) (kind : AccessKind) (pc : Word) :
    s.tlbTranslate kind vaddr pc = s.raiseAt vecMachineCheck (kindCode kind) 0 vaddr pc := by
  match hm : s.matches (vpnOf s.cfg vaddr) s.tlb.pid.asid with
  | [] | [_] => simp [hm] at h
  | _ :: _ :: _ => simp only [State.tlbTranslate, hm]

/-- The statements and the model number the access kinds alike (30_encoding R104). -/
theorem kindNumber_eq_kindCode (kind : AccessKind) : kindNumber kind = kindCode kind := by
  cases kind <;> rfl

/-- The three rights of a privilege allow an access kind exactly when the entry's bit of that privilege and kind is
set (41_tlb R145, R149). -/
theorem allows_effTlb (user : Bool) (perm : BitVec 6) (kind : AccessKind) :
    allows (effTlb user perm) kind = perm.getLsbD (permBit user kind) := by
  cases user <;> cases kind <;> simp [allows, effTlb, permBit]

/-- Settles O16: two matches leave `tlb_translate` its last arm, which is the raise alone. -/
theorem multipleMatchRaisesMachineCheck : Obligations.MultipleMatchRaisesMachineCheck := by
  intro kind vaddr pc s hroute hmany
  rw [exec_translateInstr_useMmu hroute, State.tlbTranslate_multiple (s := s.clearOut) hmany, kindNumber_eq_kindCode]
  rfl

/-- Settles O17: a miss stages `PD0` before the raise, and the vector depends on whether the access is a fetch. -/
theorem missStagesPd0AndRaises : Obligations.MissStagesPd0AndRaises := by
  intro kind vaddr pc s hroute hnone
  rw [exec_translateInstr_useMmu hroute, State.tlbTranslate_miss (s := s.clearOut) hnone, kindNumber_eq_kindCode]
  rfl

/-- Settles O19: a hit on an ordinary entry is decided by the bit of its permissions that the privilege and the access
kind name. -/
theorem tlbHitChecksThePrivilegesOwnBit : Obligations.TlbHitChecksThePrivilegesOwnBit := by
  intro kind vaddr pc s way e hroute hone he hordinary
  have hhit : s.clearOut.tlbTranslate kind vaddr pc = s.clearOut.tlbHit e kind vaddr pc := by
    rw [← he]
    exact State.tlbTranslate_hit (s := s.clearOut) hone kind pc
  rw [exec_translateInstr_useMmu hroute, hhit, kindNumber_eq_kindCode]
  simp only [State.tlbHit, hordinary, allows_effTlb, State.clearOut_status, Bool.false_eq_true, if_false]
  split
  · simp only [effTlb]
    cases s.status.u <;> rfl
  · rfl

end Sys2Proof.Machine
end

section
/-! SUPPORT. The requests behind the privilege check, in kernel mode, and each TLB command as one equation
(41_tlb R152 to R161). -/

namespace Sys2Proof.Machine

/-- A request behind the privilege check is, in kernel mode, its action on the state with the outputs cleared. -/
theorem exec_kernel_of_effect_eq_kernelOnly {i : Instr} {pc : Word} {act : State → State} {s : State}
    (hact : ∀ s, effect i s = s.kernelOnly pc act) (hk : s.status.u = false) : exec i s = .next (act s.clearOut) := by
  have hkernel : s.clearOut.status.u = false := hk
  rw [exec_effect, hact, State.kernelOnly_kernel hkernel]

/-- The request of a TLB command (30_encoding R129). -/
def tlbcmdInstr : TlbCmd → Word → Instr
  | .write => .tlbcmdWrite
  | .read => .tlbcmdRead
  | .writeNi => .tlbcmdWriteNi
  | .insert => .tlbcmdInsert
  | .delete => .tlbcmdDelete

/-- In kernel mode a TLB command's request performs the command (41_tlb R150). -/
theorem exec_tlbcmdInstr_kernel (c : TlbCmd) (pc : Word) {s : State} (hk : s.status.u = false) :
    exec (tlbcmdInstr c pc) s = .next (s.clearOut.tlbCommand c) := by
  have hact : ∀ t, effect (tlbcmdInstr c pc) t = t.kernelOnly pc fun t => t.tlbCommand c := by
    cases c <;> exact fun _ => rfl
  exact exec_kernel_of_effect_eq_kernelOnly hact hk

/-- The set and the way that an index's fields name are the slot of that index (41_tlb R152). -/
theorem entryIndex_eq_iff {st : BitVec 8} {way : BitVec 2} {i : BitVec 10} :
    entryIndex st way = i ↔ st = indexSet i ∧ way = indexWay i := by
  rw [← entryIndex_inj, entryIndex_split]

/-- What a slot holds after WRITENI (41_tlb R154). -/
theorem State.entry_tlbWriteNi (s : State) (st : BitVec 8) (way : BitVec 2) :
    s.tlbWriteNi.entry st way =
      if entryIndex st way = s.tlb.index.index then toEntry s.cfg s.tlb.pd0 s.tlb.pd1 else s.entry st way := by
  simp only [State.tlbWriteNi, State.entry_setEntry, entryIndex_eq_iff]

/-- Settles O25: READ is one record update; WRITENI and WRITE write the slot whose index `TLBINDEX` holds. -/
theorem tlbReadAndWriteUseTheIndexedSlot : Obligations.TlbReadAndWriteUseTheIndexedSlot := by
  intro pc s hk
  exact ⟨exec_tlbcmdInstr_kernel .read pc hk, s.clearOut.tlbWriteNi, exec_tlbcmdInstr_kernel .writeNi pc hk,
    exec_tlbcmdInstr_kernel .write pc hk, rfl, s.clearOut.entry_tlbWriteNi⟩

/-- The events of `TLBINDEX` play no part in an invalidation. -/
theorem State.invalidateWays_setEvents (s : State) (e nv : Bool) (st : BitVec 8) (ways : List (BitVec 2)) :
    (s.setEvents e nv).invalidateWays st ways = (s.invalidateWays st ways).setEvents e nv := by
  unfold State.invalidateWays
  induction ways generalizing s with
  | nil => rfl
  | cons way ways ih => exact ih (s.invalidate st way)

/-- DELETE, whole (41_tlb R156, R157): every match is invalidated, `E` tells that there was none, a single match is
named in `INDEX`, and a deletion flushes. -/
theorem State.tlbDelete_eq {s : State} {found : List (BitVec 2)} (hfound : s.search = found) :
    s.tlbDelete =
      { s with
        tlb.entries := (s.invalidateWays s.pd0Set found).tlb.entries
        tlb.index :=
          { e := decide (found = [])
            nv := false
            index := if h : found.length = 1 then entryIndex s.pd0Set found[0] else s.tlb.index.index }
        out.flushOut := s.out.flushOut ++ if found = [] then [] else [.all] } := by
  unfold State.tlbDelete
  rw [hfound]
  match found with
  | [] => simp [State.setEvents, State.invalidateWays]
  | [way] => rfl
  | way :: other :: more =>
    dsimp only
    rw [State.invalidateWays_setEvents, State.invalidateWays_eq]
    simp [State.setEvents, State.flush]

/-- Settles O26: every clause is a field of DELETE's one equation; the slots are those of the list of matches. -/
theorem deleteInvalidatesEveryMatch : Obligations.DeleteInvalidatesEveryMatch := by
  rintro pc s _ _ hk rfl rfl
  refine ⟨s.clearOut.tlbDelete, exec_tlbcmdInstr_kernel .delete pc hk, ?_⟩
  rw [State.tlbDelete_eq rfl]
  exact ⟨rfl, fun st' way => s.clearOut.entry_invalidateWays _ st' _ way, rfl, rfl, rfl, rfl⟩

/-- A way other than the head of a list is in the list exactly when it is in the tail. -/
theorem mem_tail_iff_of_ne_headD {α : Type} {l : List α} {a d : α} (h : a ≠ l.headD d) : a ∈ l.tail ↔ a ∈ l := by
  cases l with
  | nil => rfl
  | cons b l => simp [show a ≠ b from h]

/-- Overwriting the head of the matches, or `d` where there is none, after invalidating the rest: what each slot holds
(41_tlb R160). -/
theorem State.entry_insertAt_invalidateWays (s : State) (st st' : BitVec 8) (found : List (BitVec 2))
    (d way : BitVec 2) :
    ((s.invalidateWays st found.tail).insertAt st (found.headD d)).entry st' way =
      if st' = st ∧ way = found.headD d then toEntry s.cfg s.tlb.pd0 s.tlb.pd1
      else if st' = st ∧ way ∈ found then { s.entry st' way with v := false }
      else s.entry st' way := by
  rw [State.entry_insertAt, State.entry_invalidateWays, State.invalidateWays_eq]
  by_cases hway : way = found.headD d
  · by_cases hst : st' = st <;> simp [hst, hway]
  · simp only [hway, and_false, if_false, mem_tail_iff_of_ne_headD hway]

/-- Settles O27: with `V` set INSERT writes the head of the matches or the victim, after the other matches are
invalidated; with `V` clear it sets the events alone. -/
theorem insertWritesTheMatchOrTheVictim : Obligations.InsertWritesTheMatchOrTheVictim := by
  rintro pc s _ _ _ hk rfl rfl rfl
  refine ⟨s.clearOut.tlbInsert, exec_tlbcmdInstr_kernel .insert pc hk, ?_⟩
  by_cases hv : s.tlb.pd0.getLsbD 9 = true
  · rw [State.tlbInsert_valid (s := s.clearOut) hv, if_pos hv]
    refine ⟨?frame, ?outputs, fun st' => State.entry_insertAt_invalidateWays _ _ st' _ _, ?victims, ?index⟩
    case victims =>
      intro st'
      rw [State.invalidateWays_eq]
      exact State.victim_insertAt _ _ st' _
    all_goals rw [State.invalidateWays_eq]; rfl
  · rw [State.tlbInsert_invalid (s := s.clearOut) (Bool.eq_false_of_not_eq_true hv), if_neg hv]
    exact ⟨rfl, rfl, rfl, rfl, rfl⟩

/-- Settles O31: the flush maps every entry to its invalid copy, with no privilege check. -/
theorem flushExtInvalidatesEveryEntry : Obligations.FlushExtInvalidatesEveryEntry := by
  intro s
  exact ⟨_, exec_effect .tlbFlushExt s, rfl, fun st way => get_invalidateAll s.tlb.entries _⟩

end Sys2Proof.Machine
end

section
/-! SUPPORT. A write of an auxiliary register in kernel mode is the store of the register its number names
(30_encoding R98). -/

namespace Sys2Proof.Machine

/-- A well-formed write in kernel mode stores into the register that the number names. -/
theorem exec_auxWrite_kernel {s : State} {id : Word} {r : AuxReg} (hk : s.status.u = false)
    (hr : s.cfg.auxReg? id = some r) (hgood : s.malformedAccess r = false) (w pc : Word) :
    exec (.auxWrite id w pc) s = .next (s.clearOut.auxStore w pc r) := by
  have hstore : s.clearOut.auxWriteKernel id w pc = s.clearOut.auxStore w pc r := by
    have hgood' : s.clearOut.malformedAccess r = false := hgood
    simp only [State.auxWriteKernel, State.clearOut_cfg, hr, hgood', Bool.false_eq_true, if_false]
  rw [← hstore]
  exact exec_kernel_of_effect_eq_kernelOnly (act := fun s => s.auxWriteKernel id w pc) (fun _ => rfl) hk

/-- An access of an existing region's register is well formed (42_mpu R200). -/
theorem State.malformedAccess_region {s : State} {i : Nat} (hi : i < s.cfg.mpuRegions) :
    s.malformedAccess (.rdb i) = false ∧ s.malformedAccess (.rdp i) = false := by
  simp [State.malformedAccess, regionIndex?, isPerVector, hi]

/-- A region register's write, after the outputs were cleared: the flush, the other regions and the region itself
(42_mpu R199). -/
theorem State.writeRegion_clearOut (s : State) {i : Nat} (hi : i < 16) (r : Region) :
    s.clearOut.writeRegion i r =
        { s with
          mpu.regions := (s.clearOut.writeRegion i r).mpu.regions
          out := { Outputs.none with flushOut := [.all] } } ∧
      (∀ j ≠ i, (s.clearOut.writeRegion i r).region j = s.region j) ∧ (s.clearOut.writeRegion i r).region i = r :=
  ⟨rfl, fun _ hj => State.region_writeRegion_other _ _ hj, State.region_writeRegion_self _ _ hi⟩

/-- Settles O37: none of these accesses is malformed, so each write is its register's store, which flushes. -/
theorem translationRegisterWritesFlushAll : Obligations.TranslationRegisterWritesFlushAll := by
  intro s id w pc hk
  refine ⟨fun hr => exec_auxWrite_kernel hk hr rfl w pc, fun hr => exec_auxWrite_kernel hk hr rfl w pc,
    fun hr => exec_auxWrite_kernel hk hr rfl w pc, fun hr => exec_auxWrite_kernel hk hr rfl w pc,
    fun i hi h16 r hr hregion => ?_⟩
  obtain ⟨hrdb, hrdp⟩ := State.malformedAccess_region hi
  obtain rfl | rfl := hregion
  · obtain ⟨hframe, hothers, hself⟩ := s.writeRegion_clearOut h16 (unpackRdb w (s.region i))
    exact ⟨_, exec_auxWrite_kernel hk hr hrdb w pc, hframe, hothers, hself.trans (if_pos rfl).symm⟩
  · obtain ⟨hframe, hothers, hself⟩ := s.writeRegion_clearOut h16 (unpackRdp w (s.region i))
    exact ⟨_, exec_auxWrite_kernel hk hr hrdp w pc, hframe, hothers, hself.trans (if_neg nofun).symm⟩

end Sys2Proof.Machine
end

section
/-! SUPPORT. The region that answers an address (42_mpu R191), and a `TRANSLATE` that the router sends to the MPU
(42_mpu R194). -/

namespace Sys2Proof.Machine

/-- A search of the numbers below `n`, with `n` for a failed one, answers the lowest number that passes. -/
theorem find?_range_getD_eq_iff {p : Nat → Bool} {n r : Nat} :
    ((List.range n).find? p).getD n = r ↔ (r < n ∧ p r = true ∨ r = n) ∧ ∀ j < r, ¬p j = true := by
  cases hfind : (List.range n).find? p with
  | none =>
    have hnone : ∀ j < n, ¬p j = true := by simpa using hfind
    constructor
    · rintro rfl
      exact ⟨.inr rfl, hnone⟩
    · rintro ⟨⟨hr, hp⟩ | rfl, -⟩
      · exact absurd hp (hnone r hr)
      · rfl
  | some i =>
    obtain ⟨hp, hi, hbelow⟩ : p i = true ∧ i < n ∧ ∀ j < i, ¬p j = true := by simpa using hfind
    constructor
    · rintro rfl
      exact ⟨.inl ⟨hi, hp⟩, hbelow⟩
    · rintro ⟨hr, hbelow'⟩
      have hle : r ≤ i := Nat.le_of_not_lt fun hlt => hbelow' i hlt hp
      obtain ⟨-, hpr⟩ | rfl := hr
      · exact Nat.le_antisymm (Nat.le_of_not_lt fun hlt => hbelow r hlt hpr) hle
      · exact absurd hi (Nat.not_lt.mpr hle)

/-- Settles O21: `find_region` searches the region numbers in ascending order for one that answers. -/
theorem lowestCoveringRegionAnswers : Obligations.LowestCoveringRegionAnswers := by
  intro s a r
  simp only [← State.regionAnswers_iff]
  exact find?_range_getD_eq_iff

/-- A translation routed to the MPU is `mpu_check` on the state with the outputs cleared (40_router R133). -/
theorem exec_translateInstr_useMpu {s : State} {vaddr : Word} (h : s.routeOf vaddr = .useMpu) (kind : AccessKind)
    (pc : Word) : exec (translateInstr kind vaddr pc) s = .next (s.clearOut.mpuCheck kind vaddr pc) := by
  have htr : s.translate kind vaddr pc = s.clearOut.mpuCheck kind vaddr pc := by
    have hr : s.clearOut.routeOf vaddr = .useMpu := h
    simp only [State.translate, hr]
  rw [← htr]
  cases kind <;> rfl

/-- The effective rights of a permission set allow an access kind exactly when the user's bit of that kind is set or,
in kernel mode, the kernel's (42_mpu R193). -/
theorem allows_effMpu (user : Bool) (perm : BitVec 6) (kind : AccessKind) :
    allows (effMpu user perm) kind =
      (perm.getLsbD (permBit true kind) || (!user && perm.getLsbD (permBit false kind))) := by
  cases user <;> cases kind <;> simp [allows, effMpu, permBit, Bool.or_comm]

/-- An access that the answering region allows is granted at its own address (42_mpu R194). -/
theorem State.mpuCheck_allowed {s : State} {vaddr : Word} {kind : AccessKind}
    (h : allows (effMpu s.status.u (s.permissionFor (s.findRegion vaddr))) kind = true) (pc : Word) :
    s.mpuCheck kind vaddr pc =
      s.grant vaddr (effMpu s.status.u (s.permissionFor (s.findRegion vaddr))) true
        (s.pageGranular vaddr (s.findRegion vaddr)) :=
  if_pos h

/-- A violation is recorded in `MPU_ECR` and raises ProtV (42_mpu R194, R196). -/
theorem State.mpuCheck_violation {s : State} {vaddr : Word} {kind : AccessKind}
    (h : ¬allows (effMpu s.status.u (s.permissionFor (s.findRegion vaddr))) kind = true) (pc : Word) :
    s.mpuCheck kind vaddr pc =
      { s with mpu.ecr := mpuEcrWord kind (s.findRegion vaddr) }.raiseAt vecProtV (kindCode kind) s.cfg.protvMpu vaddr
        pc :=
  if_neg h

/-- Settles O22: the test of the two permission bits of the access kind is the test of the effective rights, by which
`mpu_check` grants or raises. -/
theorem mpuCheckDecidesByTheAnsweringRegion : Obligations.MpuCheckDecidesByTheAnsweringRegion := by
  rintro kind vaddr pc s _ _ hroute rfl rfl
  rw [exec_translateInstr_useMpu hroute, kindNumber_eq_kindCode, ← allows_effMpu]
  by_cases hallowed : allows (effMpu s.status.u (s.permissionFor (s.findRegion vaddr))) kind = true
  · rw [State.mpuCheck_allowed (s := s.clearOut) hallowed]
    exact (if_pos hallowed).symm
  · rw [State.mpuCheck_violation (s := s.clearOut) hallowed]
    exact (if_neg hallowed).symm

end Sys2Proof.Machine
end

section
/-! SUPPORT. The input lines: what LINE makes of each source (43_interrupts R231, 10_state R44). -/

namespace Sys2Proof.Machine

/-- Every hardware source has a slot of its own (00_scope R4). -/
theorem Config.numIrq_le {cfg : Config} (h : cfg.wf = true) : cfg.numHwIrq ≤ cfg.numIrq ∧ cfg.numIrq ≤ 240 := by
  obtain ⟨-, -, -, -, -, hhw, hirq, -⟩ := (Config.wf_iff cfg).1 h
  exact ⟨hhw, hirq⟩

/-- LINE of a hardware source latches a rising edge of a pulse source and takes the level (43_interrupts R231). -/
theorem State.drive_hardware {s : State} {src : Byte} (hne : src ≠ 0xFF) (hhw : src.toNat < s.cfg.numHwIrq)
    (level : Bool) :
    s.drive src level =
      (if (s.source src.toNat).trig && !s.lineOf src.toNat && level then
        s.setSource src.toNat { s.source src.toNat with plat := true } else s).setLine src.toNat level := by
  unfold State.drive
  rw [if_neg hne, if_pos hhw]

/-- LINE of a source that is no hardware source is refused (43_interrupts R231). -/
theorem State.drive_notHardware {s : State} {src : Byte} (hne : src ≠ 0xFF) (hhw : s.cfg.numHwIrq ≤ src.toNat)
    (level : Bool) : s.drive src level = s.refuse .lineNotHardware := by
  unfold State.drive
  rw [if_neg hne, if_neg (Nat.not_lt.mpr hhw)]

/-- LINE of a hardware source changes the lines and the sources alone. -/
theorem State.drive_frame {s : State} {src : Byte} (hne : src ≠ 0xFF) (hhw : src.toNat < s.cfg.numHwIrq)
    (level : Bool) :
    s.drive src level =
      { s with irq.lines := (s.drive src level).irq.lines, irq.sources := (s.drive src level).irq.sources } := by
  rw [State.drive_hardware hne hhw]
  split <;> rfl

/-- The lines after LINE of a hardware source. -/
theorem State.lineOf_drive {s : State} {src : Byte} (hne : src ≠ 0xFF) (hhw : src.toNat < s.cfg.numHwIrq)
    (hslot : src.toNat < 240) (level : Bool) (n : Nat) :
    (s.drive src level).lineOf n = if n = src.toNat then level else s.lineOf n := by
  rw [State.drive_hardware hne hhw]
  by_cases hn : n = src.toNat
  · subst hn
    rw [if_pos rfl]
    exact State.lineOf_setLine_self _ _ hslot
  · rw [if_neg hn, State.lineOf_setLine_other _ _ hn]
    split <;> rfl

/-- The sources after LINE of a hardware source: a rising edge of a pulse source sets its latch. -/
theorem State.source_drive {s : State} {src : Byte} (hne : src ≠ 0xFF) (hhw : src.toNat < s.cfg.numHwIrq)
    (hslot : src.toNat < 240) (level : Bool) (n : Nat) :
    (s.drive src level).source n =
      if n = src.toNat then
        { s.source n with plat := (s.source n).plat || ((s.source n).trig && !s.lineOf n && level) }
      else s.source n := by
  rw [State.drive_hardware hne hhw, State.source_setLine]
  by_cases hn : n = src.toNat
  · subst hn
    rw [if_pos rfl]
    split
    · next hrise => rw [State.source_setSource_self _ _ hslot, hrise, Bool.or_true]
    · next hrise => rw [Bool.eq_false_of_not_eq_true hrise, Bool.or_false]
  · rw [if_neg hn]
    split
    · exact State.source_setSource_other _ _ hn
    · rfl

/-- A hardware source is pending by its latch if it is pulse triggered and by its line if not (10_state R44). -/
theorem State.pending_hardware {s : State} {n : Nat} (h : n < s.cfg.numHwIrq) :
    s.pending n = if (s.source n).trig then (s.source n).plat else s.lineOf n :=
  if_pos h

/-- Settles O48: the three clauses are the branches of LINE; the last is its lines and sources, by which the source is
pending. -/
theorem lineDrivesItsInput : Obligations.LineDrivesItsInput := by
  intro s src level hwf
  obtain ⟨hle, h240⟩ := Config.numIrq_le hwf
  refine ⟨?input, ?refused, ?hardware⟩
  case input =>
    rintro rfl
    rfl
  case refused =>
    intro hne hhw
    rw [exec_effect]
    exact congrArg _ (State.drive_notHardware (s := s.clearOut) hne hhw level)
  case hardware =>
    intro hhw
    have hslot : src.toNat < 240 := by omega
    have hne : src ≠ 0xFF := by
      rintro rfl
      exact absurd hslot (by decide)
    have hline := State.lineOf_drive (s := s.clearOut) hne hhw hslot level
    have hsource := State.source_drive (s := s.clearOut) hne hhw hslot level
    have hframe := State.drive_frame (s := s.clearOut) hne hhw level
    have hself := (hsource src.toNat).trans (if_pos rfl)
    have hpending : (s.clearOut.drive src level).pending src.toNat =
        if (s.source src.toNat).trig then ((s.clearOut.drive src level).source src.toNat).plat else level := by
      rw [State.pending_hardware (by rw [hframe]; exact hhw), hline, if_pos rfl, hself]
      rfl
    exact ⟨_, exec_effect _ s, hframe, (hline _).trans (if_pos rfl),
      fun n hn => ⟨(hline n).trans (if_neg hn), (hsource n).trans (if_neg hn)⟩, hself, hpending⟩

end Sys2Proof.Machine
end

section
/-! SUPPORT. The priority encoder (43_interrupts R243, R244). -/

namespace Sys2Proof.Machine

/-- A scan of the numbers below `n` in ascending order answers for the first that has an answer. -/
theorem findSome?_range_eq_some {α : Type} {f : Nat → Option α} {n : Nat} {b : α} :
    (List.range n).findSome? f = some b ↔ ∃ p < n, f p = some b ∧ ∀ q < p, f q = none := by
  induction n with
  | zero => simp
  | succ n ih =>
    rw [List.range_succ, List.findSome?_append, Option.or_eq_some_iff, ih, List.findSome?_eq_none_iff]
    simp only [List.mem_range, List.findSome?_singleton]
    constructor
    · rintro (⟨p, hp, h⟩ | ⟨hnone, hn⟩)
      · exact ⟨p, by omega, h⟩
      · exact ⟨n, by omega, hn, hnone⟩
    · rintro ⟨p, hp, hb, hnone⟩
      obtain hlt | rfl : p < n ∨ p = n := by omega
      · exact .inl ⟨p, hlt, hb, hnone⟩
      · exact .inr ⟨hnone, hb⟩

/-- What the encoder looks for (43_interrupts R244): an eligible source that comes before every other, by priority and
then by number. -/
def State.MostUrgent (s : State) (n : Nat) : Prop :=
  n < s.cfg.numIrq ∧ s.eligible n = true ∧
    ∀ m < s.cfg.numIrq, s.eligible m = true →
      (s.source n).prio.toNat < (s.source m).prio.toNat ∨ (s.source n).prio.toNat = (s.source m).prio.toNat ∧ n ≤ m

/-- At most one source comes before every other. -/
theorem State.MostUrgent.unique {s : State} {n m : Nat} (hn : s.MostUrgent n) (hm : s.MostUrgent m) : n = m := by
  obtain ⟨hnlt, hnel, hnmin⟩ := hn
  obtain ⟨hmlt, hmel, hmmin⟩ := hm
  have := hnmin m hmlt hmel
  have := hmmin n hnlt hnel
  omega

/-- One level's selection is its lowest-numbered eligible source. -/
theorem State.selectAt_eq_some {s : State} {p n : Nat} :
    s.selectAt p = some n ↔
      (s.eligible n = true ∧ (s.source n).prio.toNat = p) ∧ n < s.cfg.numIrq ∧
        ∀ m < n, s.eligible m = true → (s.source m).prio.toNat ≠ p := by
  unfold State.selectAt
  rw [List.find?_range_eq_some]
  simp only [Bool.and_eq_true, decide_eq_true_eq, List.mem_range, Bool.not_eq_true', Bool.and_eq_false_imp,
    decide_eq_false_iff_not, ne_eq]

/-- A level selects nothing exactly when none of its sources is eligible. -/
theorem State.selectAt_eq_none {s : State} {p : Nat} :
    s.selectAt p = none ↔ ∀ m < s.cfg.numIrq, s.eligible m = true → (s.source m).prio.toNat ≠ p := by
  unfold State.selectAt
  rw [List.find?_range_eq_none]
  simp only [Bool.not_eq_true', Bool.and_eq_false_imp, decide_eq_false_iff_not, ne_eq]

/-- Nothing is selected exactly when nothing is eligible: a priority has four bits, so every level is scanned. -/
theorem State.select_eq_none {s : State} : s.select = none ↔ ∀ n < s.cfg.numIrq, s.eligible n = false := by
  unfold State.select
  simp only [List.findSome?_eq_none_iff, List.mem_range, State.selectAt_eq_none]
  constructor
  · intro h n hn
    exact Bool.eq_false_iff.2 fun hel => h _ (BitVec.isLt _) n hn hel rfl
  · intro h p _ n hn hel
    exact absurd hel (by simp [h n hn])

/-- What is selected comes before every other eligible source. -/
theorem State.mostUrgent_of_select {s : State} {n : Nat} (h : s.select = some n) : s.MostUrgent n := by
  obtain ⟨p, -, hat, hbelow⟩ := findSome?_range_eq_some.1 h
  obtain ⟨⟨hel, hprio⟩, hlt, hfirst⟩ := State.selectAt_eq_some.1 hat
  refine ⟨hlt, hel, fun m hm helm => ?_⟩
  have hlevel : ¬(s.source m).prio.toNat < p := fun hlow => State.selectAt_eq_none.1 (hbelow _ hlow) m hm helm rfl
  have hnumber : m < n → (s.source m).prio.toNat ≠ p := fun hmn => hfirst m hmn helm
  omega

/-- The encoder selects exactly the source that comes before every other (43_interrupts R244). -/
theorem State.select_eq_some {s : State} {n : Nat} : s.select = some n ↔ s.MostUrgent n := by
  refine ⟨State.mostUrgent_of_select, fun hn => ?_⟩
  cases hsel : s.select with
  | none =>
    obtain ⟨hlt, hel, -⟩ := hn
    exact absurd hel (by simp [State.select_eq_none.1 hsel n hlt])
  | some m => rw [(State.mostUrgent_of_select hsel).unique hn]

/-- Settles O49: eligible is enabled and pending, and the encoder selects the source before every other. -/
theorem encoderSelectsTheMostUrgentLowestSource : Obligations.EncoderSelectsTheMostUrgentLowestSource := by
  intro s
  refine ⟨State.select_eq_none, fun n => State.select_eq_some.trans ?_⟩
  simp only [State.MostUrgent, State.eligible, Bool.and_eq_true, and_imp, and_assoc]

end Sys2Proof.Machine
end

section
/-! SUPPORT. The polls that take nothing (43_interrupts R242, R245, R259). -/

namespace Sys2Proof.Machine

/-- The current priority is at most every active level (43_interrupts R245). -/
theorem State.currentPrio_le {s : State} {q : Nat} (h : s.irq.act.getLsbD q = true) : s.currentPrio ≤ q := by
  unfold State.currentPrio
  cases hcur : lsb? s.irq.act with
  | none => simp [lsb?_eq_none.1 hcur] at h
  | some p =>
    obtain ⟨-, -, hbelow⟩ := lsb?_eq_some.1 hcur
    exact Nat.le_of_not_lt fun hqp => Bool.false_ne_true ((hbelow q hqp).symm.trans h)

/-- The fast path serves a source exactly when its priority is 0 and the path is configured (43_interrupts R252). -/
theorem State.isFast_prio {s : State} {n : Nat} :
    s.isFast (s.source n).prio.toNat = true ↔ (s.source n).prio = 0 ∧ s.cfg.firqPresent = true := by
  simp [State.isFast, ← BitVec.toNat_inj]

/-- The frame would be lost exactly in the case that 43_interrupts R259 names. -/
theorem State.frameWouldBeLost_iff {s : State} :
    s.frameWouldBeLost = true ↔ s.status.u = true ∧ s.irq.ctrl.u = true ∧ s.irq.act ≠ 0 := by
  simp [State.frameWouldBeLost, and_assoc]

/-- A poll that takes a source enters its interrupt (43_interrupts R249). -/
theorem State.poll_takes {s : State} {n : Nat} (h : takes s n) (pc : Word) :
    s.poll pc = s.enterInterrupt n (s.source n).prio.toNat pc := by
  obtain ⟨hgate, hsel, hprio⟩ := h
  unfold State.poll
  rw [if_pos hgate, hsel]
  exact if_pos hprio

/-- A poll that takes no source does nothing (43_interrupts R249). -/
theorem State.poll_takes_none {s : State} (h : ∀ n, ¬takes s n) (pc : Word) : s.poll pc = s := by
  obtain hidle | ⟨n, hgate, hsel, hprio, -⟩ := s.poll_cases pc
  · exact hidle
  · exact absurd ⟨hgate, hsel, hprio⟩ (h n)

/-- A poll that takes no source changes nothing but the outputs. -/
theorem exec_irqPoll_takes_none {s : State} (h : ∀ n, ¬takes s n) (pc : Word) :
    exec (.irqPoll pc) s = .next { s with out := Outputs.none } := by
  rw [exec_effect]
  exact congrArg _ (State.poll_takes_none (s := s.clearOut) h pc)

/-- Settles O50: in the first three clauses the poll takes no source, since one of its three conditions fails; in the
last it takes one whose frame would be lost. -/
theorem pollTakesNothingUnlessUrgent : Obligations.PollTakesNothingUnlessUrgent := by
  intro s pc
  refine ⟨?gate, ?nothing, ?notUrgent, ?lost⟩
  case gate =>
    intro hclosed
    refine exec_irqPoll_takes_none (fun n ⟨hgate, _, _⟩ => ?_) pc
    obtain ⟨hh, hie, hae, hde, hreq⟩ := State.gateOpen_iff.1 hgate
    simp [hh, hie, hae, hde, hreq] at hclosed
  case nothing =>
    intro hnone
    exact exec_irqPoll_takes_none (fun n ⟨_, hsel, _⟩ => Option.some_ne_none n (hsel.symm.trans hnone)) pc
  case notUrgent =>
    intro n q hn hactive hq
    refine exec_irqPoll_takes_none (fun m ⟨_, hsel, hprio⟩ => ?_) pc
    obtain rfl : n = m := Option.some.inj (hn.symm.trans hsel)
    have := State.currentPrio_le hactive
    omega
  case lost =>
    intro n hgate hsel hprio hregular huser hctrl hact
    have htakes : takes s.clearOut n := ⟨hgate, hsel, hprio⟩
    have hslow : ¬s.clearOut.isFast (s.clearOut.source n).prio.toNat = true := fun h =>
      hregular (State.isFast_prio.1 h)
    have hlost : s.clearOut.frameWouldBeLost = true := State.frameWouldBeLost_iff.2 ⟨huser, hctrl, hact⟩
    rw [exec_effect]
    refine congrArg _ ((State.poll_takes htakes pc).trans ?_)
    unfold State.enterInterrupt
    rw [if_neg hslow, if_pos hlost]
    rfl

end Sys2Proof.Machine
end

section
/-! SUPPORT. The general registers bank by bank: what a write and the stack-pointer switch do to the registers of either
bank (10_state R21, R23, R24). -/

namespace Sys2Proof.Machine

/-- In the bank selected, a register reads as `x[i]` does. -/
theorem State.regInBank_selected (s : State) (i : Fin 32) : s.regInBank s.status.rb i = s.readReg i := rfl

/-- What a register holds in a bank depends on the parameters and the CPU registers alone. -/
theorem State.regInBank_congr {s t : State} (hc : t.cfg = s.cfg) (hr : t.cpu = s.cpu) (rb : Bool) (i : Fin 32) :
    t.regInBank rb i = s.regInBank rb i := by
  simp [State.regInBank, State.readReg, hc, hr]

/-- A register that is not banked reads the same in both banks. -/
theorem State.regInBank_unbanked {s : State} {i : Fin 32} (h : isBanked s.cfg i = false) (rb : Bool) :
    s.regInBank rb i = s.readReg i := by
  simp [State.regInBank, State.readReg, h]

/-- A register that is not banked is one of `core`. -/
theorem State.readReg_unbanked {s : State} {i : Fin 32} (h : isBanked s.cfg i = false) :
    s.readReg i = s.cpu.core.get i := by
  simp [State.readReg, h]

/-- Writing a register that is not banked writes `core`. -/
theorem State.writeReg_unbanked {s : State} {i : Fin 32} (h : isBanked s.cfg i = false) (v : Word) :
    s.writeReg i v = { s with cpu.core := s.cpu.core.set i.val v } := by
  simp [State.writeReg, h]

/-- Writing a register changes the CPU registers alone. -/
theorem State.writeReg_eq (s : State) (i : Fin 32) (v : Word) :
    s.writeReg i v = { s with cpu := (s.writeReg i v).cpu } :=
  State.eq_of_fields (by simp) rfl (by simp) (by simp) (by simp) (by simp) (by simp) (by simp) (by simp) (by simp)
    (by simp) (by simp) (by simp)

/-- Writing a register leaves every other register alone in both banks (10_state R23). -/
theorem State.regInBank_writeReg_other (s : State) {i j : Fin 32} (v : Word) (h : j ≠ i) (rb : Bool) :
    (s.writeReg i v).regInBank rb j = s.regInBank rb j := by
  have hv : i.val ≠ j.val := fun e => h (Fin.ext e.symm)
  by_cases hi : isBanked s.cfg i = true
  · cases hs : s.status.rb <;>
      simp [State.regInBank, State.readReg, State.writeReg, Vector.get_eq_getElem, hi, hs, hv]
  · simp [State.regInBank, State.readReg, State.writeReg, Vector.get_eq_getElem, hi, hv]

/-- No write reaches a banked register's copy in the bank that is not selected (10_state R23). -/
theorem State.regInBank_writeReg_otherBank {s : State} {j : Fin 32} (hj : isBanked s.cfg j = true) (i : Fin 32)
    (v : Word) : (s.writeReg i v).regInBank (!s.status.rb) j = s.regInBank (!s.status.rb) j := by
  by_cases hij : j = i
  · subst hij
    unfold State.regInBank State.readReg
    simp only [State.writeReg_cfg, hj, if_true]
    unfold State.writeReg
    rw [if_pos hj]
    cases s.status.rb <;> rfl
  · exact s.regInBank_writeReg_other v hij _

/-- The stack-pointer switch, whole: `SP` is never banked. -/
theorem State.switchSp_cpu {s : State} (hwf : s.cfg.wf = true) :
    s.switchSp.cpu =
      { s.cpu with core := s.cpu.core.set regSp.val s.cpu.userSp, userSp := s.cpu.core.get regSp } := by
  have hsp := not_banked hwf (.inl (rfl : regSp = regSp))
  simp only [State.switchSp, State.writeReg_unbanked hsp, State.readReg_unbanked hsp]

/-- The stack-pointer switch exchanges the same registers whichever bank is selected. -/
theorem State.switchSpIf_cpu_anyBank {s t : State} (hwf : s.cfg.wf = true) (hc : t.cfg = s.cfg) (hr : t.cpu = s.cpu)
    (b : Bool) : (t.switchSpIf b).cpu = (s.switchSpIf b).cpu := by
  cases b with
  | false => exact hr
  | true =>
    rw [State.switchSpIf_true, State.switchSpIf_true, State.switchSp_cpu hwf, State.switchSp_cpu (hc.symm ▸ hwf), hr]

/-- A state with the CPU registers that the stack-pointer switch leaves has the stack switched (10_state R24). -/
theorem stackSwitched_of_cpu {s t : State} {b : Bool} (hwf : s.cfg.wf = true) (hc : t.cfg = s.cfg)
    (hr : t.cpu = (s.switchSpIf b).cpu) : StackSwitched b s t := by
  have hreg : ∀ rb i, t.regInBank rb i = (s.switchSpIf b).regInBank rb i :=
    State.regInBank_congr (hc.trans (State.switchSpIf_cfg s b).symm) hr
  cases b with
  | false =>
    exact { sp := hreg _ _, userSp := congrArg _ hr, others := fun i _ rb => hreg rb i, rest := by rw [hr]; rfl }
  | true =>
    have hsp : s.switchSp.regInBank s.status.rb regSp = s.cpu.userSp := by
      rw [← State.switchSp_readReg_sp s, ← State.regInBank_selected, State.switchSp_status]
    exact
      { sp := (hreg _ _).trans hsp
        userSp := congrArg _ hr
        others := fun i hi rb => (hreg rb i).trans (s.regInBank_writeReg_other s.cpu.userSp hi rb)
        rest := by rw [hr, State.switchSpIf_true, State.switchSp_cpu hwf] }

/-- After the switch `SP` is the pointer that a flag selects, whichever bank is selected then. -/
theorem stackSwitched_readReg_sp {s t : State} {b : Bool} (hwf : s.cfg.wf = true) (hc : t.cfg = s.cfg)
    (h : StackSwitched b s t) : t.readReg regSp = if b then s.cpu.userSp else s.readReg regSp := by
  rw [← h.sp, State.regInBank_unbanked]
  exact not_banked (hc.symm ▸ hwf) (.inl rfl)

end Sys2Proof.Machine
end

section
/-! SUPPORT. The marks of an interrupt entry (43_interrupts R251) and the fast path, there and back (R253, R261). -/

namespace Sys2Proof.Machine

/-- The state from which either path of an entry sets out: the marks of the entry, and no outputs yet. -/
def State.marked (s : State) (n p : Nat) : State := { s with irq := (s.markEntry n p).irq, out := Outputs.none }

/-- The outputs play no part in the marks of an entry. -/
theorem State.markEntry_clearOut (s : State) (n p : Nat) : s.clearOut.markEntry n p = s.marked n p := by
  have hsource : s.clearOut.source n = s.source n := rfl
  unfold State.marked State.markEntry
  dsimp only
  rw [hsource, State.clearOut_cfg]
  by_cases hhw : n < s.cfg.numHwIrq
  · by_cases htrig : (s.source n).trig = true
    · rw [if_pos hhw, if_pos hhw, if_pos htrig, if_pos htrig]
      rfl
    · rw [if_pos hhw, if_pos hhw, if_neg htrig, if_neg htrig]
      rfl
  · rw [if_neg hhw, if_neg hhw]
    rfl

/-- The sources after an entry: the latch of a hardware pulse source is cleared. -/
theorem State.source_markEntry (s : State) (n p m : Nat) :
    (s.markEntry n p).source m =
      if m = n ∧ n < s.cfg.numHwIrq ∧ (s.source n).trig then { s.source m with plat := false } else s.source m := by
  by_cases hhw : n < s.cfg.numHwIrq
  · by_cases htrig : (s.source n).trig = true
    · have hslot : n < 240 := by
        by_contra habove
        have habsent : s.source n = IrqSource.absent := by
          simp [State.source, Vector.getD, Array.getD_eq_getD_getElem?, Nat.not_lt.mp habove]
        simp [habsent, IrqSource.absent] at htrig
      simp only [State.markEntry, if_pos hhw, if_pos htrig]
      by_cases hm : m = n
      · subst hm
        rw [if_pos ⟨rfl, hhw, htrig⟩]
        exact State.source_setSource_self _ _ hslot
      · rw [if_neg fun h => hm h.1]
        exact State.source_setSource_other _ _ hm
    · simp only [State.markEntry, if_pos hhw, if_neg htrig]
      rw [if_neg fun h => htrig h.2.2]
      rfl
  · simp only [State.markEntry, if_neg hhw]
    rw [if_neg fun h => hhw h.2.1]
    rfl

/-- The causes after an entry: its level's slot holds the source's vector. -/
theorem State.icause_markEntry (s : State) (n p q : Nat) :
    (s.markEntry n p).irq.icause.getD q 0 =
      if q = p ∧ p < 16 then BitVec.ofNat 8 (16 + n) else s.irq.icause.getD q 0 := by
  have hcauses : (s.markEntry n p).irq.icause = s.irq.icause.setIfInBounds p (sourceVector n) := by
    unfold State.markEntry
    dsimp only
    split <;> [split <;> rfl; rfl]
  rw [hcauses]
  by_cases hq : q = p
  · subst hq
    by_cases hlt : q < 16
    · rw [getD_setIfInBounds_self _ _ _ hlt, if_pos ⟨rfl, hlt⟩]
      rfl
    · rw [if_neg fun h => hlt h.2]
      simp [Vector.getD, hlt]
  · rw [getD_setIfInBounds_other _ _ _ hq, if_neg fun h => hq h.1]

/-- A state with the interrupt controller that the bookkeeping of 43_interrupts R251 leaves bears the marks. -/
theorem entryMarked_of_irq {s t : State} {n p : Nat} (h : t.irq = (s.markEntry n p).irq) : EntryMarked s t n p := by
  have hselect : (s.markEntry n p).irq.select = s.irq.select := by
    unfold State.markEntry
    dsimp only
    split <;> [split <;> rfl; rfl]
  exact
    { act := by rw [h]; exact State.markEntry_act s n p
      actU := by rw [h]; exact State.markEntry_actU s n p
      cause := by rw [h]; exact State.icause_markEntry s n p
      sources := by unfold State.source; rw [h]; exact State.source_markEntry s n p
      hint := by rw [h]; exact State.markEntry_hint s n p
      lines := by rw [h]; exact State.markEntry_lines s n p
      irqReq := by rw [h]; exact State.markEntry_irqReq s n p
      select := by rw [h]; exact hselect
      ctrl := by rw [h]; exact State.markEntry_ctrl s n p }

/-- The offset of a source's word in the vector table (43_interrupts R230, 60_exceptions R292). -/
theorem sourceVector_offset {n : Nat} (h : n < 240) :
    (sourceVector n).setWidth 32 <<< 2 = BitVec.ofNat 32 (4 * (16 + n)) := by
  apply BitVec.eq_of_toNat_eq
  simp [sourceVector, Nat.shiftLeft_eq]
  omega

/-- A selected source has a slot (00_scope R4). -/
theorem takes_lt {s : State} {n : Nat} (hwf : s.cfg.wf = true) (h : takes s n) : n < 240 := by
  obtain ⟨-, hsel, -⟩ := h
  obtain ⟨hlt, -⟩ := State.mostUrgent_of_select hsel
  have := Config.numIrq_le hwf
  omega

/-- A poll that takes a source which the fast path serves (43_interrupts R252). -/
theorem exec_irqPoll_fast {s : State} {n : Nat} (htakes : takes s n) (hprio : (s.source n).prio = 0)
    (hfast : s.cfg.firqPresent = true) (pc : Word) :
    exec (.irqPoll pc) s = .next ((s.marked n 0).fastEntry n pc) := by
  have hserved : s.clearOut.isFast (s.clearOut.source n).prio.toNat = true := State.isFast_prio.2 ⟨hprio, hfast⟩
  have hzero : (s.clearOut.source n).prio.toNat = 0 := congrArg BitVec.toNat hprio
  rw [exec_effect]
  refine congrArg _ ((State.poll_takes (s := s.clearOut) htakes pc).trans ?_)
  unfold State.enterInterrupt
  rw [if_pos hserved, hzero, State.markEntry_clearOut]

/-- The fast path, whole (43_interrupts R253, R254). -/
theorem State.fastEntry_eq {s : State} (hwf : s.cfg.wf = true) (n : Nat) (pc : Word) :
    s.fastEntry n pc =
      { s with
        cpu := ((s.writeReg regIlink pc).switchSpIf s.status.u).cpu
        mem := s.agentsMove.mem
        otherAgents := s.agentsMove.otherAgents
        exc.statusP0 := packStatus s.status
        status := { entryUpdate s.status with rb := if s.cfg.numBanks = 2 then true else s.status.rb }
        out.nextPc := some (s.agentsMove.word (s.exc.ivb + ((sourceVector n).setWidth 32 <<< 2))) } := by
  have hilink := State.writeReg_unbanked (not_banked hwf (.inr (.inl (rfl : regIlink = regIlink)))) pc
  unfold State.fastEntry
  dsimp only
  rw [State.jumpVector_eq, State.switchSpIf_eq]
  refine State.eq_of_fields rfl ?cpu ?status rfl rfl rfl rfl ?mem ?others rfl ?out rfl rfl
  case status =>
    refine congrArg (fun rb => { entryUpdate s.status with rb := rb }) ?_
    cases decEq s.cfg.numBanks 2 <;> simp [*, entryUpdate]
  case cpu => exact State.switchSpIf_cpu_anyBank (by simpa using hwf) (by simp) (by rw [hilink]) s.status.u
  case mem => refine (State.agentsMove_congr (s := s) ?_ ?_).1 <;> rfl
  case others => refine (State.agentsMove_congr (s := s) ?_ ?_).2 <;> rfl
  case out =>
    simp only [Outputs.mk.injEq, Option.some.injEq, and_true]
    refine State.agentsMove_word_congr (s := s) ?_ ?_ ?_ _ <;> rfl

/-- Settles O51: the fast path's one equation, on the state with the marks of the entry. -/
theorem fastEntrySwitchesTheBank : Obligations.FastEntrySwitchesTheBank := by
  intro s n pc hinv htakes hprio hfast
  have hwf := hinv.cfg
  obtain ⟨hmem, hothers⟩ := State.agentsMove_congr (s := s) (t := s.marked n 0) rfl rfl
  have hword := State.agentsMove_word_congr (s := s) (t := s.marked n 0) rfl rfl rfl
  refine ⟨_, exec_irqPoll_fast htakes hprio hfast pc, ?_⟩
  rw [State.fastEntry_eq (s := s.marked n 0) hwf, sourceVector_offset (takes_lt hwf htakes)]
  refine ⟨?frame, entryMarked_of_irq rfl, stackSwitched_of_cpu (by simpa using hwf) (by simp; rfl) ?cpu⟩
  case frame =>
    refine State.eq_of_fields rfl rfl rfl rfl rfl rfl rfl hmem hothers rfl ?_ rfl rfl
    exact congrArg (fun w => { Outputs.none with nextPc := some w }) (hword _)
  case cpu =>
    have hilink := not_banked hwf (.inr (.inl (rfl : regIlink = regIlink)))
    refine State.switchSpIf_cpu_anyBank (by simpa using hwf) (by simp; rfl) ?_ s.status.u
    rw [State.writeReg_unbanked hilink, State.writeReg_unbanked (s := s.marked n 0) hilink]
    rfl

/-- A RETURN with no exception active leaves the most urgent active level (60_exceptions R296). -/
theorem exec_ret_interrupt {s : State} {p : Nat} (hae : s.status.ae = false) (hp : lsb? s.irq.act = some p) :
    exec .ret s = .next (s.clearOut.interruptReturn p) := by
  have hreturn : s.clearOut.return = s.clearOut.interruptReturn p := by
    simp [State.return, hae, hp]
  rw [exec_effect]
  exact congrArg _ hreturn

/-- The fast return, whole (43_interrupts R261). -/
theorem State.fastReturn_eq {s : State} (hwf : s.cfg.wf = true) :
    s.fastReturn =
      { s with
        cpu := (s.switchSpIf (unpackStatus s.cfg s.exc.statusP0).u).cpu
        status := unpackStatus s.cfg s.exc.statusP0
        irq.act := clearAct s.irq.act 0
        irq.actU := s.irq.actU && decide (clearAct s.irq.act 0 ≠ 0)
        out.nextPc := some (s.readReg regIlink) } := by
  unfold State.fastReturn State.clearLevel State.jump
  dsimp only
  rw [State.switchSpIf_eq, State.readReg_unbanked (not_banked hwf (.inr (.inl rfl)))]
  refine State.eq_of_fields rfl ?_ rfl rfl rfl rfl rfl rfl rfl rfl rfl rfl rfl
  refine State.switchSpIf_cpu_anyBank (s := s) hwf ?_ ?_ _ <;> rfl

/-- Settles O54: level 0 is the most urgent there is, so RETURN is the fast return's one equation. -/
theorem fastReturnRestoresTheBank : Obligations.FastReturnRestoresTheBank := by
  intro s hwf hae hact hfast
  have hzero : lsb? s.irq.act = some 0 := lsb?_eq_some.2 ⟨by omega, hact, fun _ hq => absurd hq (Nat.not_lt_zero _)⟩
  have hreturn : s.clearOut.interruptReturn 0 = s.clearOut.fastReturn := if_pos (by simp [State.isFast, hfast])
  refine ⟨_, exec_ret_interrupt hae hzero, ?_⟩
  rw [hreturn, State.fastReturn_eq (s := s.clearOut) hwf]
  refine ⟨rfl, stackSwitched_of_cpu hwf rfl ?_⟩
  refine State.switchSpIf_cpu_anyBank (s := s) hwf ?_ ?_ _ <;> rfl

end Sys2Proof.Machine
end

section
/-! SUPPORT. Pushes: what a list of words pushed one after the other does to the registers and to memory
(43_interrupts R256, R258). -/

namespace Sys2Proof.Machine

@[simp] theorem State.push_lpCount (s : State) (w : Word) : (s.push w).cpu.lpCount = s.cpu.lpCount := by
  simp [State.push]
@[simp] theorem State.push_lpStart (s : State) (w : Word) : (s.push w).cpu.lpStart = s.cpu.lpStart := by
  simp [State.push]
@[simp] theorem State.push_lpEnd (s : State) (w : Word) : (s.push w).cpu.lpEnd = s.cpu.lpEnd := by
  simp [State.push]
@[simp] theorem State.push_eiBase (s : State) (w : Word) : (s.push w).cpu.eiBase = s.cpu.eiBase := by
  simp [State.push]
@[simp] theorem State.push_ldiBase (s : State) (w : Word) : (s.push w).cpu.ldiBase = s.cpu.ldiBase := by
  simp [State.push]
@[simp] theorem State.push_jliBase (s : State) (w : Word) : (s.push w).cpu.jliBase = s.cpu.jliBase := by
  simp [State.push]

/-- Writing a register touches no CPU register outside the register file. -/
theorem State.writeReg_cpu (s : State) (i : Fin 32) (v : Word) :
    (s.writeReg i v).cpu =
      { s.cpu with
        core := (s.writeReg i v).cpu.core, bank0 := (s.writeReg i v).cpu.bank0,
        bank1 := (s.writeReg i v).cpu.bank1, userSp := (s.writeReg i v).cpu.userSp } := by
  unfold State.writeReg
  split <;> [split <;> rfl; rfl]

/-- Two changes of the register file and `USER_SP` alone are one. -/
theorem CpuRegs.outside_trans {a b c : CpuRegs}
    (hab : b = { a with core := b.core, bank0 := b.bank0, bank1 := b.bank1, userSp := b.userSp })
    (hbc : c = { b with core := c.core, bank0 := c.bank0, bank1 := c.bank1, userSp := c.userSp }) :
    c = { a with core := c.core, bank0 := c.bank0, bank1 := c.bank1, userSp := c.userSp } := by
  rw [hbc, hab]

/-- The registers that a write leaves depend on the parameters, the registers and the bank alone. -/
theorem State.writeReg_cpu_congr {s t : State} (hc : t.cfg = s.cfg) (hr : t.cpu = s.cpu)
    (hb : t.status.rb = s.status.rb) (i : Fin 32) (v : Word) : (t.writeReg i v).cpu = (s.writeReg i v).cpu := by
  unfold State.writeReg
  rw [hc, hr, hb]
  split <;> [split <;> rfl; rfl]

/-- The memory after words are pushed from a stack pointer, the first at the highest address. -/
def Memory.storeFrame (en : Endian) : Memory → Word → List Word → Memory
  | m, _, [] => m
  | m, sp, w :: ws => Memory.storeFrame en (m.writeWord en (sp - 4) w) (sp - 4) ws

/-- A push where nobody else writes, whole (43_interrupts R256). -/
theorem State.push_eq {s : State} (h : s.undisturbed) (w : Word) :
    s.push w =
      { s.writeReg regSp (s.readReg regSp - 4) with
        mem := s.mem.writeWord s.cfg.endian (s.readReg regSp - 4) w } := by
  have hmoved : (s.writeReg regSp (s.readReg regSp - 4)).undisturbed := by simpa [State.undisturbed] using h
  unfold State.push State.memWrite
  dsimp only
  rw [State.agentsMove_undisturbed hmoved]
  simp

/-- A list of pushes where nobody else writes, whole: `SP` moves down by 4 for each word, and the words lie below where
it was (43_interrupts R256, R258). -/
theorem State.foldl_push_eq {s : State} (h : s.undisturbed) (ws : List Word) :
    ws.foldl State.push s =
      { s.writeReg regSp (s.readReg regSp - BitVec.ofNat 32 (4 * ws.length)) with
        mem := s.mem.storeFrame s.cfg.endian (s.readReg regSp) ws } := by
  induction ws generalizing s with
  | nil => simp [Memory.storeFrame, State.writeReg_readReg]
  | cons w ws ih =>
    have hsp : s.readReg regSp - 4 - BitVec.ofNat 32 (4 * ws.length) =
        s.readReg regSp - BitVec.ofNat 32 (4 * (w :: ws).length) := by
      rw [List.length_cons]
      bv_omega
    have hcpu : ((s.push w).writeReg regSp (s.readReg regSp - BitVec.ofNat 32 (4 * (w :: ws).length))).cpu =
        (s.writeReg regSp (s.readReg regSp - BitVec.ofNat 32 (4 * (w :: ws).length))).cpu := by
      rw [← State.writeReg_writeReg_self s regSp (s.readReg regSp - 4), State.push_eq h]
      refine State.writeReg_cpu_congr ?_ ?_ ?_ _ _ <;> rfl
    have hmem : (s.push w).mem = s.mem.writeWord s.cfg.endian (s.readReg regSp - 4) w := by rw [State.push_eq h]
    have hothers : (s.push w).otherAgents = s.otherAgents := (State.push_undisturbed h w).trans h.symm
    rw [List.foldl_cons, ih (State.push_undisturbed h w), State.push_readReg_sp, hsp]
    refine State.eq_of_fields (by simp) hcpu (by simp) (by simp) (by simp) (by simp) (by simp) ?_ ?_ (by simp)
      (by simp) (by simp) (by simp)
    · simp only [hmem, State.push_cfg]
      rfl
    · simpa using hothers

/-- The word below a frame's first is the next frame address (43_interrupts R258). -/
theorem frameAddr_succ (sp : Word) (k : Nat) : frameAddr (sp - 4) k = frameAddr sp (k + 1) := by
  unfold frameAddr
  bv_omega

/-- The words of a frame do not overlap (43_interrupts R258). -/
theorem frameAddr_disjoint {sp : Word} {i j k : Nat} (hi : i < 2 ^ 29) (hj : j < 2 ^ 29) (hij : i ≠ j) (hk : k < 4) :
    ¬inWord (frameAddr sp j) (byteAddr (frameAddr sp i) k) := by
  rintro ⟨k', hk', h⟩
  unfold byteAddr frameAddr at h
  simp only [BitVec.toNat_add, BitVec.toNat_sub, BitVec.toNat_ofNat] at h
  omega

/-- Pushed words leave every byte outside them alone. -/
theorem Memory.read_storeFrame_other {en : Endian} {m : Memory} {sp : Word} {ws : List Word} {a : Nat}
    (h : ∀ k < ws.length, ¬inWord (frameAddr sp k) a) : (m.storeFrame en sp ws).read a = m.read a := by
  induction ws generalizing m sp with
  | nil => rfl
  | cons w ws ih =>
    have hfirst : ¬inWord (sp - 4) a := h 0 (by simp)
    have hrest : ∀ k < ws.length, ¬inWord (frameAddr (sp - 4) k) a := fun k hk => by
      rw [frameAddr_succ]
      exact h (k + 1) (by simpa using hk)
    exact (ih hrest).trans (Memory.read_writeWord_other hfirst)

/-- Each pushed word reads back at its address (43_interrupts R258). -/
theorem Memory.readWord_storeFrame {en : Endian} {m : Memory} (hm : m.wf = true) {sp : Word} {ws : List Word}
    (hlen : ws.length < 2 ^ 29) {k : Nat} (hk : k < ws.length) :
    (m.storeFrame en sp ws).readWord en (frameAddr sp k) = ws[k] := by
  induction ws generalizing m sp k with
  | nil => simp at hk
  | cons w ws ih =>
    rw [List.length_cons] at hlen
    cases k with
    | zero =>
      have hkept : ∀ j < 4, ((m.writeWord en (sp - 4) w).storeFrame en (sp - 4) ws).read (byteAddr (sp - 4) j) =
          (m.writeWord en (sp - 4) w).read (byteAddr (sp - 4) j) := fun j hj =>
        Memory.read_storeFrame_other fun i hi => by
          rw [frameAddr_succ]
          exact frameAddr_disjoint (i := 0) (by omega) (by omega) (by omega) hj
      exact (Memory.readWord_congr hkept).trans (Memory.readWord_writeWord_self hm)
    | succ k =>
      rw [← frameAddr_succ]
      exact ih (Memory.writeWord_wf hm) (by omega) (by simpa using hk)

end Sys2Proof.Machine
end

section
/-! SUPPORT. The regular entry: its pushes are the frame of 43_interrupts R255, in order (R257). -/

namespace Sys2Proof.Machine

/-- The pushes a condition asks for are the pushes of a list that may be empty. -/
theorem State.pushIf_eq (s : State) (b : Bool) (ws : List Word) :
    s.pushIf b ws = (if b then ws else []).foldl State.push s := by
  cases b <;> rfl

/-- A register other than `SP` is left alone by a list of pushes. -/
theorem State.foldl_push_readReg (s : State) (ws : List Word) {i : Fin 32} (h : i ≠ regSp) :
    (ws.foldl State.push s).readReg i = s.readReg i :=
  foldl_push_field (fun s => s.readReg i) (fun s w => s.push_readReg_other w h) (fun _ w => w) ws s

/-- The registers that a legal frame holds in pairs lie below `SP`, `ILINK` and `BLINK` (43_interrupts R241, R255). -/
theorem ofNat_ne_of_ge {k : Nat} {i : Fin 32} (hk : k < 28) (hi : 28 ≤ i.val) : Fin.ofNat 32 k ≠ i := by
  rintro rfl
  simp only [Fin.val_ofNat] at hi
  omega

/-- A list of words that no push changes is not changed by a list of pushes. -/
theorem State.foldl_push_words {part : State → List Word} (h : ∀ s w, part (State.push s w) = part s) (s : State)
    (ws : List Word) : part (ws.foldl State.push s) = part s :=
  foldl_push_field part h (fun _ w => w) ws s

/-- The code-density group of a frame (43_interrupts R255). -/
def State.basesWords (s : State) : List Word :=
  if s.savesBases then [s.cpu.eiBase, s.cpu.ldiBase, s.cpu.jliBase] else []

/-- The loop group of a frame (43_interrupts R255). -/
def State.loopWords (s : State) : List Word :=
  if s.savesLoop then [s.cpu.lpCount, s.cpu.lpStart, s.cpu.lpEnd] else []

/-- The link register of a frame (43_interrupts R255). -/
def State.blinkWords (s : State) : List Word := if s.irq.ctrl.b then [s.readReg regBlink] else []

/-- The first `n` registers (43_interrupts R255). -/
def State.regsWords (n : Nat) (s : State) : List Word := (List.range n).map fun k => s.readReg (Fin.ofNat 32 k)

theorem State.push_basesWords (s : State) (w : Word) : (s.push w).basesWords = s.basesWords := by
  simp [State.basesWords, State.savesBases]

theorem State.push_loopWords (s : State) (w : Word) : (s.push w).loopWords = s.loopWords := by
  simp [State.loopWords, State.savesLoop]

theorem State.push_blinkWords (s : State) (w : Word) : (s.push w).blinkWords = s.blinkWords := by
  simp [State.blinkWords, State.push_readReg_other _ _ (show regBlink ≠ regSp by decide)]

theorem State.push_regsWords {n : Nat} (h : n ≤ 28) (s : State) (w : Word) :
    (s.push w).regsWords n = s.regsWords n :=
  List.map_congr_left fun _ hk =>
    s.push_readReg_other w (ofNat_ne_of_ge (Nat.lt_of_lt_of_le (List.mem_range.1 hk) h) (by decide))

/-- Pushing the registers in ascending order pushes what they hold at the start (43_interrupts R257). -/
theorem State.pushRegs_eq (s : State) {n : Nat} (h : n ≤ 28) : s.pushRegs n = (s.regsWords n).foldl State.push s := by
  induction n with
  | zero => rfl
  | succ n ih =>
    have hlast : s.pushRegs (n + 1) = (s.pushRegs n).push ((s.pushRegs n).readReg (Fin.ofNat 32 n)) := by
      unfold State.pushRegs
      rw [List.range_succ, List.foldl_append]
      rfl
    have hwords : s.regsWords (n + 1) = s.regsWords n ++ [s.readReg (Fin.ofNat 32 n)] := by
      simp [State.regsWords, List.range_succ]
    rw [hlast, ih (by omega), State.foldl_push_readReg _ _ (ofNat_ne_of_ge (by omega) (by decide)), hwords,
      List.foldl_append]
    rfl

/-- After other pushes, pushing words that no push changes pushes what they were at the start. -/
theorem State.foldl_push_part {part : State → List Word} (h : ∀ s w, part (State.push s w) = part s) (s : State)
    (ws : List Word) :
    (part (ws.foldl State.push s)).foldl State.push (ws.foldl State.push s) = (ws ++ part s).foldl State.push s := by
  rw [State.foldl_push_words h, List.foldl_append]

/-- The frame is pushed in the order of the table (43_interrupts R255, R257). -/
theorem State.pushFrame_eq {s : State} (h : s.irq.ctrl.nr.toNat ≤ maxIrqPairs) (pc : Word) :
    s.pushFrame (packStatus s.status) pc = (s.frameWords pc).foldl State.push s := by
  have hn : 2 * s.irq.ctrl.nr.toNat ≤ 28 := by unfold maxIrqPairs at h; omega
  have hhead : (s.push (packStatus s.status)).push pc = [packStatus s.status, pc].foldl State.push s := rfl
  have hbases (t : State) :
      t.pushIf t.savesBases [t.cpu.eiBase, t.cpu.ldiBase, t.cpu.jliBase] = t.basesWords.foldl State.push t :=
    t.pushIf_eq _ _
  have hloop (t : State) :
      t.pushIf t.savesLoop [t.cpu.lpCount, t.cpu.lpStart, t.cpu.lpEnd] = t.loopWords.foldl State.push t :=
    t.pushIf_eq _ _
  have hblink (t : State) : t.pushIf t.irq.ctrl.b [t.readReg regBlink] = t.blinkWords.foldl State.push t :=
    t.pushIf_eq _ _
  have hsaved (ws : List Word) : (ws.foldl State.push s).savedRegs = 2 * s.irq.ctrl.nr.toNat :=
    foldl_push_field State.savedRegs (by simp [State.savedRegs]) (fun _ w => w) ws s
  unfold State.pushFrame
  dsimp only
  rw [hhead, hbases, State.foldl_push_part State.push_basesWords, hloop, State.foldl_push_part State.push_loopWords,
    hblink, State.foldl_push_part State.push_blinkWords, hsaved, State.pushRegs_eq _ hn,
    State.foldl_push_part (State.push_regsWords hn)]
  rfl

/-- The frame depends on the parameters, the frame's control, the status word and the registers but `SP` alone. -/
theorem State.frameWords_congr {s t : State} (hnr : s.irq.ctrl.nr.toNat ≤ maxIrqPairs) (hc : t.cfg = s.cfg)
    (hctrl : t.irq.ctrl = s.irq.ctrl) (hst : t.status = s.status)
    (hcpu : t.cpu = { s.cpu with
      core := t.cpu.core, bank0 := t.cpu.bank0, bank1 := t.cpu.bank1, userSp := t.cpu.userSp })
    (hreg : ∀ i ≠ regSp, t.readReg i = s.readReg i) (pc : Word) : t.frameWords pc = s.frameWords pc := by
  have hregs : (List.range (2 * s.irq.ctrl.nr.toNat)).map (fun k => t.readReg (Fin.ofNat 32 k)) =
      (List.range (2 * s.irq.ctrl.nr.toNat)).map fun k => s.readReg (Fin.ofNat 32 k) :=
    List.map_congr_left fun k hk => by
      have := List.mem_range.1 hk
      unfold maxIrqPairs at hnr
      exact hreg _ (ofNat_ne_of_ge (by omega) (by decide))
  unfold State.frameWords
  rw [hc, hctrl, hst, hreg _ (by decide), hregs, hcpu]

/-- A frame has the size that 43_interrupts R258 gives. -/
theorem State.length_frameWords (s : State) (pc : Word) : (s.frameWords pc).length = s.frameSize := by
  unfold State.frameWords State.frameSize
  cases s.cfg.codeDensity && s.irq.ctrl.lp <;> cases s.cfg.hasLoop && s.irq.ctrl.l <;> cases s.irq.ctrl.b <;>
    simp <;> omega

/-- A legal frame is small against the address space (43_interrupts R241). -/
theorem State.frameSize_lt (s : State) : s.frameSize < 2 ^ 29 := by
  have := s.irq.ctrl.nr.isLt
  unfold State.frameSize
  cases s.cfg.codeDensity && s.irq.ctrl.lp <;> cases s.cfg.hasLoop && s.irq.ctrl.l <;> cases s.irq.ctrl.b <;>
    simp <;> omega

/-- A poll that takes a source on the regular path, where the return can find the frame (43_interrupts R249, R259). -/
theorem exec_irqPoll_regular {s : State} {n : Nat} (htakes : takes s n)
    (hregular : ¬((s.source n).prio = 0 ∧ s.cfg.firqPresent = true))
    (hfound : ¬(s.status.u = true ∧ s.irq.ctrl.u = true ∧ s.irq.act ≠ 0)) (pc : Word) :
    exec (.irqPoll pc) s = .next ((s.marked n (s.source n).prio.toNat).regularEntry n pc) := by
  have hslow : ¬s.clearOut.isFast (s.clearOut.source n).prio.toNat = true := fun h => hregular (State.isFast_prio.1 h)
  have hkept : ¬s.clearOut.frameWouldBeLost = true := fun h => hfound (State.frameWouldBeLost_iff.1 h)
  rw [exec_effect]
  refine congrArg _ ((State.poll_takes (s := s.clearOut) htakes pc).trans ?_)
  unfold State.enterInterrupt
  rw [if_neg hslow, if_neg hkept, State.markEntry_clearOut]
  rfl

/-- The state once a regular entry has pushed its frame: before it the switch to the kernel stack, unless
`IRQ_CTRL.U` keeps the frame on the user stack (43_interrupts R257). -/
def State.framed (s : State) (pc : Word) : State :=
  (s.frameWords pc).foldl State.push (s.switchSpIf (s.status.u && !s.irq.ctrl.u))

/-- Where a regular entry's frame begins (43_interrupts R257). -/
def State.entrySp (s : State) : Word := if s.status.u && !s.irq.ctrl.u then s.cpu.userSp else s.readReg regSp

/-- The switch before the pushes sets `SP` to where the frame begins. -/
theorem State.switchSpIf_readReg_sp (s : State) (b : Bool) :
    (s.switchSpIf b).readReg regSp = if b then s.cpu.userSp else s.readReg regSp := by
  cases b
  · rfl
  · exact s.switchSp_readReg_sp

/-- The state once a regular entry has pushed its frame, whole. -/
theorem State.framed_eq {s : State} (h : s.undisturbed) (pc : Word) :
    s.framed pc =
      { s with
        cpu := ((s.switchSpIf (s.status.u && !s.irq.ctrl.u)).writeReg regSp
          (s.entrySp - BitVec.ofNat 32 (4 * s.frameSize))).cpu
        mem := s.mem.storeFrame s.cfg.endian s.entrySp (s.frameWords pc) } := by
  have hswitched : (s.switchSpIf (s.status.u && !s.irq.ctrl.u)).undisturbed := by
    simpa [State.undisturbed] using h
  unfold State.framed
  rw [State.foldl_push_eq hswitched, State.switchSpIf_readReg_sp, State.length_frameWords]
  exact State.eq_of_fields (by simp) rfl (by simp) (by simp) (by simp) (by simp) (by simp) (by simp [State.entrySp])
    (by simp) (by simp) (by simp) (by simp) (by simp)

/-- The regular path, whole (43_interrupts R254, R257). -/
theorem State.regularEntry_eq {s : State} (hwf : s.cfg.wf = true) (h : s.undisturbed)
    (hnr : s.irq.ctrl.nr.toNat ≤ maxIrqPairs) (n : Nat) (pc : Word) :
    s.regularEntry n pc =
      { s with
        cpu := ((s.framed pc).switchSpIf (s.status.u && s.irq.ctrl.u)).cpu
        mem := (s.framed pc).mem
        status := entryUpdate s.status
        out.nextPc := some ((s.framed pc).word (s.exc.ivb + ((sourceVector n).setWidth 32 <<< 2))) } := by
  have hframed : (s.switchSpIf (s.status.u && !s.irq.ctrl.u)).pushFrame (packStatus s.status) pc = s.framed pc := by
    have hswitch : StackSwitched (s.status.u && !s.irq.ctrl.u) s (s.switchSpIf (s.status.u && !s.irq.ctrl.u)) :=
      stackSwitched_of_cpu hwf (by simp) rfl
    have hpush := State.pushFrame_eq (s := s.switchSpIf (s.status.u && !s.irq.ctrl.u)) (by simpa using hnr) pc
    rw [State.switchSpIf_status] at hpush
    rw [hpush, State.frameWords_congr hnr (by simp) (by simp) (by simp) hswitch.rest]
    · rfl
    · intro i hi
      rw [← State.regInBank_selected, hswitch.others i hi, State.switchSpIf_status]
      rfl
  have hquiet : (s.framed pc).otherAgents = s.otherAgents := by rw [State.framed_eq h]
  have hstill (t : State) (ht : t.otherAgents = s.otherAgents) : t.agentsMove = t :=
    State.agentsMove_undisturbed (ht.trans h)
  have hctrl : (s.switchSpIf (s.status.u && !s.irq.ctrl.u)).irq.ctrl = s.irq.ctrl := by simp
  have hctrl' : (s.framed pc).irq.ctrl = s.irq.ctrl := by rw [State.framed_eq h]
  have hst : (s.framed pc).status = s.status := by rw [State.framed_eq h]
  unfold State.regularEntry
  dsimp only
  rw [hframed, hctrl', State.jumpVector_eq, hstill _ (by simpa using hquiet), State.switchSpIf_status, hst,
    State.switchSpIf_eq]
  rw [State.framed_eq h]
  rfl

/-- The registers once the frame is pushed: `SP` is below the frame, `USER_SP` is what the switch left, and the rest is
untouched. -/
theorem State.framed_regs {s : State} (hwf : s.cfg.wf = true) (h : s.undisturbed) (pc : Word) :
    (s.framed pc).readReg regSp = s.entrySp - BitVec.ofNat 32 (4 * s.frameSize) ∧
    (s.framed pc).cpu.userSp = (if s.status.u && !s.irq.ctrl.u then s.readReg regSp else s.cpu.userSp) ∧
    (∀ i ≠ regSp, ∀ rb, (s.framed pc).regInBank rb i = s.regInBank rb i) ∧
    (s.framed pc).cpu =
      { s.cpu with
        core := (s.framed pc).cpu.core, bank0 := (s.framed pc).cpu.bank0, bank1 := (s.framed pc).cpu.bank1,
        userSp := (s.framed pc).cpu.userSp } := by
  obtain ⟨-, huserSp, hothers, hrest⟩ :=
    stackSwitched_of_cpu (t := s.switchSpIf (s.status.u && !s.irq.ctrl.u)) hwf (by simp) rfl
  have hcfg : (s.framed pc).cfg =
      ((s.switchSpIf (s.status.u && !s.irq.ctrl.u)).writeReg regSp
        (s.entrySp - BitVec.ofNat 32 (4 * s.frameSize))).cfg := by rw [State.framed_eq h]; simp
  have hcpu : (s.framed pc).cpu =
      ((s.switchSpIf (s.status.u && !s.irq.ctrl.u)).writeReg regSp
        (s.entrySp - BitVec.ofNat 32 (4 * s.frameSize))).cpu := by rw [State.framed_eq h]
  refine ⟨?sp, ?userSp, ?others, ?rest⟩
  case sp =>
    rw [State.readReg_congr hcfg hcpu (by rw [State.framed_eq h]; simp), State.readReg_writeReg_self]
  case userSp => rw [hcpu, State.writeReg_userSp, huserSp]
  case others =>
    intro i hi rb
    rw [State.regInBank_congr hcfg hcpu, State.regInBank_writeReg_other _ _ hi, hothers i hi]
  case rest =>
    rw [hcpu]
    exact CpuRegs.outside_trans hrest (State.writeReg_cpu _ _ _)

/-- Memory once the frame is pushed: its words at their addresses, every other byte as it was (43_interrupts R258). -/
theorem State.framed_mem {s : State} (hmem : s.mem.wf = true) (h : s.undisturbed) (pc : Word) :
    (∀ k (hk : k < (s.frameWords pc).length), (s.framed pc).word (frameAddr s.entrySp k) = (s.frameWords pc)[k]) ∧
    (∀ a, (∀ k < s.frameSize, ¬inWord (frameAddr s.entrySp k) a) → (s.framed pc).byte a = s.byte a) := by
  unfold State.word State.byte
  rw [State.framed_eq h, ← s.length_frameWords pc]
  exact ⟨fun _ hk => Memory.readWord_storeFrame hmem (by rw [s.length_frameWords pc]; exact s.frameSize_lt) hk,
    fun _ ha => Memory.read_storeFrame_other ha⟩

/-- The registers after a regular entry: the stack pointers by the mode and `IRQ_CTRL.U`, and the rest untouched
(43_interrupts R255, R257). -/
theorem State.regularEntry_regs {s : State} (hwf : s.cfg.wf = true) (h : s.undisturbed)
    (hnr : s.irq.ctrl.nr.toNat ≤ maxIrqPairs) (n : Nat) (pc : Word) :
    (s.regularEntry n pc).readReg regSp =
      (if s.status.u && s.irq.ctrl.u then s.cpu.userSp else s.entrySp - BitVec.ofNat 32 (4 * s.frameSize)) ∧
    (s.regularEntry n pc).cpu.userSp =
      (if s.status.u then
        if s.irq.ctrl.u then s.entrySp - BitVec.ofNat 32 (4 * s.frameSize) else s.readReg regSp
      else s.cpu.userSp) ∧
    (∀ i ≠ regSp, ∀ rb, (s.regularEntry n pc).regInBank rb i = s.regInBank rb i) ∧
    (s.regularEntry n pc).cpu =
      { s.cpu with
        core := (s.regularEntry n pc).cpu.core, bank0 := (s.regularEntry n pc).cpu.bank0,
        bank1 := (s.regularEntry n pc).cpu.bank1, userSp := (s.regularEntry n pc).cpu.userSp } := by
  obtain ⟨hframedSp, hframedUserSp, hframedOthers, hframedRest⟩ := State.framed_regs hwf h pc
  have hcfg : (s.framed pc).cfg = s.cfg := by rw [State.framed_eq h]
  have hcfg' : (s.regularEntry n pc).cfg = (s.framed pc).cfg := by rw [State.regularEntry_eq hwf h hnr, hcfg]
  have hcpu : (s.regularEntry n pc).cpu = ((s.framed pc).switchSpIf (s.status.u && s.irq.ctrl.u)).cpu := by
    rw [State.regularEntry_eq hwf h hnr]
  have hswitch := stackSwitched_of_cpu (hcfg ▸ hwf) hcfg' hcpu
  refine ⟨?sp, ?userSp, ?others, CpuRegs.outside_trans hframedRest hswitch.rest⟩
  case sp =>
    rw [stackSwitched_readReg_sp (hcfg ▸ hwf) hcfg' hswitch, hframedSp, hframedUserSp]
    cases s.status.u <;> cases s.irq.ctrl.u <;> rfl
  case userSp =>
    rw [hswitch.userSp, hframedSp, hframedUserSp]
    cases s.status.u <;> cases s.irq.ctrl.u <;> rfl
  case others =>
    intro i hi rb
    rw [hswitch.others i hi rb, hframedOthers i hi rb]

/-- Memory after a regular entry is memory once the frame is pushed: the vector fetch only reads. -/
theorem State.regularEntry_mem {s : State} (hwf : s.cfg.wf = true) (h : s.undisturbed)
    (hnr : s.irq.ctrl.nr.toNat ≤ maxIrqPairs) (n : Nat) (pc : Word) :
    (∀ a, (s.regularEntry n pc).word a = (s.framed pc).word a) ∧
    ∀ a, (s.regularEntry n pc).byte a = (s.framed pc).byte a := by
  have hcfg : (s.framed pc).cfg = s.cfg := by rw [State.framed_eq h]
  unfold State.word State.byte
  rw [State.regularEntry_eq hwf h hnr, hcfg]
  exact ⟨fun _ => rfl, fun _ => rfl⟩

/-- The marks of an entry change nothing that its frame is made of. -/
theorem State.frame_marked {s : State} (hnr : s.irq.ctrl.nr.toNat ≤ maxIrqPairs) (n p : Nat) (pc : Word) :
    (s.marked n p).frameWords pc = s.frameWords pc ∧ (s.marked n p).frameSize = s.frameSize ∧
      (s.marked n p).entrySp = s.entrySp := by
  have hctrl : (s.marked n p).irq.ctrl = s.irq.ctrl := s.markEntry_ctrl n p
  have hwords := State.frameWords_congr (t := s.marked n p) hnr rfl hctrl rfl rfl (fun _ _ => rfl) pc
  refine ⟨hwords, ?_, ?_⟩
  · rw [← State.length_frameWords _ pc, hwords, State.length_frameWords]
  · unfold State.entrySp
    rw [hctrl]
    rfl

/-- Settles O52: the regular path's one equation, on the state with the marks of the entry, whose frame is the frame of
the state before. -/
theorem regularEntryPushesTheFrame : Obligations.RegularEntryPushesTheFrame := by
  rintro s n pc _ hinv hquiet htakes hregular hfound rfl
  have hctrl : (s.marked n (s.source n).prio.toNat).irq.ctrl = s.irq.ctrl := s.markEntry_ctrl n _
  have hnr : (s.marked n (s.source n).prio.toNat).irq.ctrl.nr.toNat ≤ maxIrqPairs := hctrl ▸ hinv.nr
  have hentry := State.regularEntry_eq (s := s.marked n (s.source n).prio.toNat) hinv.cfg hquiet hnr n pc
  obtain ⟨hwords, hsize, hsp⟩ := State.frame_marked hinv.nr n (s.source n).prio.toNat pc
  obtain ⟨hword, hbyte⟩ := State.regularEntry_mem (s := s.marked n (s.source n).prio.toNat) hinv.cfg hquiet hnr n pc
  obtain ⟨hinside, houtside⟩ := State.framed_mem (s := s.marked n (s.source n).prio.toNat) hinv.mem hquiet pc
  obtain ⟨hfinalSp, hfinalUserSp, hothers, hrest⟩ :=
    State.regularEntry_regs (s := s.marked n (s.source n).prio.toNat) hinv.cfg hquiet hnr n pc
  rw [hwords, hsp] at hinside
  rw [hsize, hsp] at houtside
  rw [hctrl, hsize, hsp] at hfinalSp hfinalUserSp
  refine ⟨_, exec_irqPoll_regular htakes hregular hfound pc, ?frame, entryMarked_of_irq (by rw [hentry]; rfl),
    s.length_frameWords pc, fun k hk => (hword _).trans (hinside k hk), fun a ha => (hbyte a).trans (houtside a ha),
    hfinalSp, hfinalUserSp, hothers, hrest⟩
  case frame =>
    rw [hword, hentry, sourceVector_offset (takes_lt hinv.cfg htakes)]
    rfl

end Sys2Proof.Machine
end

section
/-! SUPPORT. Pops: what a list of words popped one after the other does to the registers that take them (43_interrupts
R256, R262). -/

namespace Sys2Proof.Machine

/-- Where a popped word of a regular frame goes (43_interrupts R255). -/
inductive FrameSlot where
  | reg (i : Fin 32)
  | lpCount | lpStart | lpEnd | eiBase | ldiBase | jliBase

/-- The word in a slot. -/
def State.get (s : State) : FrameSlot → Word
  | .reg i => s.readReg i
  | .lpCount => s.cpu.lpCount
  | .lpStart => s.cpu.lpStart
  | .lpEnd => s.cpu.lpEnd
  | .eiBase => s.cpu.eiBase
  | .ldiBase => s.cpu.ldiBase
  | .jliBase => s.cpu.jliBase

/-- A word put into a slot. -/
def State.put (s : State) : FrameSlot → Word → State
  | .reg i, v => s.writeReg i v
  | .lpCount, v => { s with cpu.lpCount := v }
  | .lpStart, v => { s with cpu.lpStart := v }
  | .lpEnd, v => { s with cpu.lpEnd := v }
  | .eiBase, v => { s with cpu.eiBase := v }
  | .ldiBase, v => { s with cpu.ldiBase := v }
  | .jliBase, v => { s with cpu.jliBase := v }

/-- A word popped into a slot (43_interrupts R262). -/
def State.popTo (s : State) (slot : FrameSlot) : State := s.popped.put slot s.popWord

/-- Putting a word into a slot changes the CPU registers alone. -/
theorem State.put_eq (s : State) (slot : FrameSlot) (v : Word) :
    s.put slot v = { s with cpu := (s.put slot v).cpu } := by
  cases slot with
  | reg i => exact s.writeReg_eq i v
  | _ => rfl

@[simp] theorem State.put_cfg (s : State) (slot : FrameSlot) (v : Word) : (s.put slot v).cfg = s.cfg := by
  rw [State.put_eq]
@[simp] theorem State.put_status (s : State) (slot : FrameSlot) (v : Word) : (s.put slot v).status = s.status := by
  rw [State.put_eq]
@[simp] theorem State.put_otherAgents (s : State) (slot : FrameSlot) (v : Word) :
    (s.put slot v).otherAgents = s.otherAgents := by
  rw [State.put_eq]

@[simp] theorem State.get_put_self (s : State) (slot : FrameSlot) (v : Word) : (s.put slot v).get slot = v := by
  cases slot with
  | reg i => exact s.readReg_writeReg_self i v
  | _ => rfl

/-- Putting a word into a slot leaves every other slot alone. -/
theorem State.get_put_other (s : State) {slot other : FrameSlot} (v : Word) (h : other ≠ slot) :
    (s.put slot v).get other = s.get other := by
  cases slot with
  | reg i =>
    cases other with
    | reg j => exact s.readReg_writeReg_other v fun hji => h (congrArg FrameSlot.reg hji)
    | _ => simp [State.put, State.get]
  | _ =>
    cases other with
    | reg j => rfl
    | _ => simp_all [State.put, State.get]

@[simp] theorem State.put_userSp (s : State) (slot : FrameSlot) (v : Word) :
    (s.put slot v).cpu.userSp = s.cpu.userSp := by
  cases slot with
  | reg i => exact s.writeReg_userSp i v
  | _ => rfl

@[simp] theorem State.put_bta (s : State) (slot : FrameSlot) (v : Word) : (s.put slot v).cpu.bta = s.cpu.bta := by
  cases slot with
  | reg i => exact s.writeReg_bta i v
  | _ => rfl

/-- A register that is not the slot is left alone in both banks (10_state R23). -/
theorem State.regInBank_put_other (s : State) {slot : FrameSlot} {j : Fin 32} (h : FrameSlot.reg j ≠ slot) (v : Word)
    (rb : Bool) : (s.put slot v).regInBank rb j = s.regInBank rb j := by
  cases slot with
  | reg i => exact s.regInBank_writeReg_other v (fun hji => h (congrArg FrameSlot.reg hji)) rb
  | _ => rfl

/-- No word put into a slot reaches a banked register's copy in the bank that is not selected (10_state R23). -/
theorem State.regInBank_put_otherBank (s : State) {j : Fin 32} (hj : isBanked s.cfg j = true) (slot : FrameSlot)
    (v : Word) : (s.put slot v).regInBank (!s.status.rb) j = s.regInBank (!s.status.rb) j := by
  cases slot with
  | reg i => exact s.regInBank_writeReg_otherBank hj i v
  | _ => rfl

/-- A pop where nobody else writes moves `SP` up by 4 (43_interrupts R256). -/
theorem State.popped_eq {s : State} (h : s.undisturbed) : s.popped = s.put (.reg regSp) (s.readReg regSp + 4) := by
  unfold State.popped
  rw [State.agentsMove_undisturbed h]
  rfl

/-- A pop where nobody else writes takes the word at `SP` (43_interrupts R256). -/
theorem State.popWord_eq {s : State} (h : s.undisturbed) : s.popWord = s.word (s.readReg regSp) := by
  unfold State.popWord
  rw [State.agentsMove_undisturbed h]

/-- A pop into a slot where nobody else writes, whole. -/
theorem State.popTo_eq {s : State} (h : s.undisturbed) (slot : FrameSlot) :
    s.popTo slot = (s.put (.reg regSp) (s.readReg regSp + 4)).put slot (s.word (s.readReg regSp)) := by
  unfold State.popTo
  rw [State.popped_eq h, State.popWord_eq h]

/-- A property that a change of `SP` or of one of the slots keeps, whatever the word, is kept by pops into the slots
where nobody else writes. -/
theorem State.foldl_popTo_induction {motive : State → Prop} {s : State} (h : s.undisturbed) {slots : List FrameSlot}
    (hs : motive s)
    (hput : ∀ t, t.cfg = s.cfg → t.status = s.status → ∀ slot ∈ .reg regSp :: slots, ∀ v, motive t →
      motive (t.put slot v)) :
    motive (slots.foldl State.popTo s) := by
  refine (List.foldlRecOn (motive := fun t => (t.undisturbed ∧ t.cfg = s.cfg ∧ t.status = s.status) ∧ motive t) slots
    State.popTo ⟨⟨h, rfl, rfl⟩, hs⟩ ?_).2
  rintro t ⟨⟨hquiet, hcfg, hst⟩, ht⟩ slot hslot
  rw [State.popTo_eq hquiet]
  have hmoved := hput t hcfg hst _ (List.mem_cons_self ..) (t.readReg regSp + 4) ht
  refine ⟨⟨by simpa [State.undisturbed] using hquiet, by simpa using hcfg, by simpa using hst⟩, ?_⟩
  exact hput _ (by simpa using hcfg) (by simpa using hst) slot (List.mem_cons_of_mem _ hslot) _ hmoved

/-- Pops into slots change the CPU registers alone. -/
theorem State.foldl_popTo_frame {s : State} (h : s.undisturbed) (slots : List FrameSlot) :
    slots.foldl State.popTo s = { s with cpu := (slots.foldl State.popTo s).cpu } := by
  refine State.foldl_popTo_induction (motive := fun t => t = { s with cpu := t.cpu }) h rfl ?_
  intro t _ _ slot _ v ht
  rw [State.put_eq, ht]

/-- A slot that takes no popped word is left alone. -/
theorem State.foldl_popTo_get_other {s : State} (h : s.undisturbed) {slots : List FrameSlot} {slot : FrameSlot}
    (hslot : slot ∉ .reg regSp :: slots) : (slots.foldl State.popTo s).get slot = s.get slot := by
  refine State.foldl_popTo_induction (motive := fun t => t.get slot = s.get slot) h rfl ?_
  intro t _ _ other hother v ht
  exact (t.get_put_other v fun he : slot = other => hslot (he ▸ hother)).trans ht

/-- Nobody disturbs pops where nobody was about to write. -/
theorem State.foldl_popTo_undisturbed {s : State} (h : s.undisturbed) (slots : List FrameSlot) :
    (slots.foldl State.popTo s).undisturbed := by
  rw [State.foldl_popTo_frame h]
  exact h

/-- A pop into a slot other than `SP` moves `SP` up by 4. -/
theorem State.popTo_readReg_sp {s : State} (h : s.undisturbed) {slot : FrameSlot} (hslot : .reg regSp ≠ slot) :
    (s.popTo slot).readReg regSp = s.readReg regSp + 4 := by
  rw [State.popTo_eq h]
  exact ((s.put _ _).get_put_other _ hslot).trans (s.get_put_self _ _)

/-- Each pop moves `SP` up by 4. -/
theorem State.foldl_popTo_readReg_sp {s : State} (h : s.undisturbed) {slots : List FrameSlot}
    (hslots : .reg regSp ∉ slots) :
    (slots.foldl State.popTo s).readReg regSp = s.readReg regSp + BitVec.ofNat 32 (4 * slots.length) := by
  induction slots generalizing s with
  | nil => simp
  | cons slot slots ih =>
    rw [List.mem_cons, not_or] at hslots
    obtain ⟨hslot, hrest⟩ := hslots
    have hquiet : (s.popTo slot).undisturbed := State.foldl_popTo_undisturbed h [slot]
    rw [List.foldl_cons, ih hquiet hrest, State.popTo_readReg_sp h hslot, List.length_cons]
    bv_omega

/-- A slot holds the word that was popped into it last: the one as far above `SP` as there were pops before it. -/
theorem State.foldl_popTo_get {s : State} (h : s.undisturbed) {before after : List FrameSlot} {slot : FrameSlot}
    (hsp : .reg regSp ∉ before ++ slot :: after) (hafter : slot ∉ after) :
    ((before ++ slot :: after).foldl State.popTo s).get slot =
      s.word (s.readReg regSp + BitVec.ofNat 32 (4 * before.length)) := by
  simp only [List.mem_append, List.mem_cons, not_or] at hsp
  obtain ⟨hbefore, hslot, -⟩ := hsp
  have hkept : slot ∉ .reg regSp :: after := by
    rw [List.mem_cons, not_or]
    exact ⟨Ne.symm hslot, hafter⟩
  have hquiet := State.foldl_popTo_undisturbed h before
  have hquiet' : ((before.foldl State.popTo s).popTo slot).undisturbed := State.foldl_popTo_undisturbed hquiet [slot]
  rw [List.foldl_append, List.foldl_cons, State.foldl_popTo_get_other hquiet' hkept,
    State.popTo_eq hquiet, State.get_put_self, State.foldl_popTo_readReg_sp h hbefore, State.foldl_popTo_frame h]
  rfl

end Sys2Proof.Machine
end

section
/-! SUPPORT. The regular return: its pops are the frame of 43_interrupts R255, in reverse order (R262). -/

namespace Sys2Proof.Machine

/-- The first `n` registers, in pop order (43_interrupts R262). -/
def regsSlots (n : Nat) : List FrameSlot := (List.range n).reverse.map fun k => .reg (Fin.ofNat 32 k)

/-- The link register of the frame (43_interrupts R262). -/
def State.blinkSlots (s : State) : List FrameSlot := if s.irq.ctrl.b then [.reg regBlink] else []

/-- The loop group of the frame, in pop order (43_interrupts R262). -/
def State.loopSlots (s : State) : List FrameSlot := if s.savesLoop then [.lpEnd, .lpStart, .lpCount] else []

/-- The code-density group of the frame, in pop order (43_interrupts R262). -/
def State.basesSlots (s : State) : List FrameSlot := if s.savesBases then [.jliBase, .ldiBase, .eiBase] else []

/-- What a regular return pops before the return address and the status word, in pop order (43_interrupts R262). -/
def State.frameSlots (s : State) : List FrameSlot :=
  regsSlots s.savedRegs ++ s.blinkSlots ++ s.loopSlots ++ s.basesSlots

/-- The frame is popped in the reverse order of the table (43_interrupts R255, R262). -/
theorem State.popFrame_eq {s : State} (h : s.undisturbed) : s.popFrame = s.frameSlots.foldl State.popTo s := by
  have hregs : s.popRegs s.savedRegs = (regsSlots s.savedRegs).foldl State.popTo s := by
    unfold State.popRegs regsSlots
    rw [List.foldl_map]
    rfl
  have hblink (t : State) : (if t.irq.ctrl.b then t.popReg regBlink else t) = t.blinkSlots.foldl State.popTo t := by
    unfold State.blinkSlots
    split <;> rfl
  have hloop (t : State) : (if t.savesLoop then t.popLoop else t) = t.loopSlots.foldl State.popTo t := by
    unfold State.loopSlots
    split <;> rfl
  have hbases (t : State) : (if t.savesBases then t.popBases else t) = t.basesSlots.foldl State.popTo t := by
    unfold State.basesSlots
    split <;> rfl
  have hblinkKept (slots : List FrameSlot) : (slots.foldl State.popTo s).blinkSlots = s.blinkSlots := by
    rw [State.foldl_popTo_frame h]
    rfl
  have hloopKept (slots : List FrameSlot) : (slots.foldl State.popTo s).loopSlots = s.loopSlots := by
    rw [State.foldl_popTo_frame h]
    rfl
  have hbasesKept (slots : List FrameSlot) : (slots.foldl State.popTo s).basesSlots = s.basesSlots := by
    rw [State.foldl_popTo_frame h]
    rfl
  unfold State.popFrame State.frameSlots
  dsimp only
  rw [hregs, hblink, hblinkKept, ← List.foldl_append, hloop, hloopKept, ← List.foldl_append, hbases, hbasesKept,
    ← List.foldl_append]

@[simp] theorem length_regsSlots (n : Nat) : (regsSlots n).length = n := by simp [regsSlots]

@[simp] theorem State.length_blinkSlots (s : State) : s.blinkSlots.length = s.irq.ctrl.b.toNat := by
  unfold State.blinkSlots
  cases s.irq.ctrl.b <;> rfl

@[simp] theorem State.length_loopSlots (s : State) : s.loopSlots.length = 3 * s.savesLoop.toNat := by
  unfold State.loopSlots
  cases s.savesLoop <;> rfl

@[simp] theorem State.length_basesSlots (s : State) : s.basesSlots.length = 3 * s.savesBases.toNat := by
  unfold State.basesSlots
  cases s.savesBases <;> rfl

/-- The size of a frame by its groups (43_interrupts R258). -/
theorem State.frameSize_eq (s : State) :
    s.frameSize = 2 + 3 * s.savesBases.toNat + 3 * s.savesLoop.toNat + s.irq.ctrl.b.toNat + 2 * s.irq.ctrl.nr.toNat :=
  rfl

/-- The frame holds two words more than its slots (43_interrupts R258). -/
theorem State.length_frameSlots (s : State) : s.frameSlots.length + 2 = s.frameSize := by
  rw [State.frameSize_eq]
  simp only [State.frameSlots, List.length_append, length_regsSlots, State.length_blinkSlots,
    State.length_loopSlots, State.length_basesSlots, State.savedRegs]
  omega

/-- The slots of the frame: each group's when its condition holds (43_interrupts R255). -/
theorem State.mem_frameSlots {s : State} {slot : FrameSlot} :
    slot ∈ s.frameSlots ↔
      (∃ k < 2 * s.irq.ctrl.nr.toNat, .reg (Fin.ofNat 32 k) = slot) ∨
      (s.irq.ctrl.b = true ∧ slot = .reg regBlink) ∨
      (s.savesLoop = true ∧ slot ∈ [.lpEnd, .lpStart, .lpCount]) ∨
      (s.savesBases = true ∧ slot ∈ [.jliBase, .ldiBase, .eiBase]) := by
  simp only [State.frameSlots, regsSlots, State.blinkSlots, State.loopSlots, State.basesSlots, State.savedRegs,
    List.mem_append, List.mem_ite_nil_right, List.mem_map, List.mem_reverse, List.mem_range, List.mem_singleton,
    or_assoc]

/-- The registers of the frame: the pairs, and the link register when the frame holds it (43_interrupts R255). -/
theorem State.reg_mem_frameSlots {s : State} {i : Fin 32} :
    .reg i ∈ s.frameSlots ↔
      (∃ k < 2 * s.irq.ctrl.nr.toNat, Fin.ofNat 32 k = i) ∨ (s.irq.ctrl.b = true ∧ i = regBlink) := by
  simp only [State.mem_frameSlots, FrameSlot.reg.injEq, List.mem_cons, List.not_mem_nil, reduceCtorEq, or_false,
    and_false]

/-- `SP` is no register of a legal frame (43_interrupts R241). -/
theorem State.sp_not_mem_frameSlots {s : State} (hnr : s.irq.ctrl.nr.toNat ≤ maxIrqPairs) :
    .reg regSp ∉ s.frameSlots := fun h => by
  unfold maxIrqPairs at hnr
  obtain ⟨k, hk, he⟩ | ⟨-, he⟩ := State.reg_mem_frameSlots.1 h
  · exact ofNat_ne_of_ge (by omega) (by decide) he
  · exact absurd he (by decide)

/-- Word `k` of the frame that lies at `SP`, counted from the highest address down (43_interrupts R258). -/
def State.frameWord (s : State) (k : Nat) : Word :=
  s.word (s.readReg regSp + BitVec.ofNat 32 (4 * (s.frameSize - 1 - k)))

/-- The state once the whole frame is popped, with its return address and its status word. -/
def State.unframed (s : State) : State := s.popFrame.popped.popped

/-- The return address and the status word are the last two words popped (43_interrupts R262). -/
theorem State.popWord_popFrame {s : State} (h : s.undisturbed) (hnr : s.irq.ctrl.nr.toNat ≤ maxIrqPairs) :
    s.popFrame.popWord = s.frameWord 1 ∧ s.popFrame.popped.popWord = s.frameWord 0 := by
  have hquiet : s.popFrame.undisturbed := by
    rw [State.popFrame_eq h]
    exact State.foldl_popTo_undisturbed h _
  have hsp : s.popFrame.readReg regSp = s.readReg regSp + BitVec.ofNat 32 (4 * s.frameSlots.length) := by
    rw [State.popFrame_eq h]
    exact State.foldl_popTo_readReg_sp h (State.sp_not_mem_frameSlots hnr)
  have hword (a : Word) : s.popFrame.word a = s.word a := by
    rw [State.popFrame_eq h, State.foldl_popTo_frame h]
    rfl
  have hword' (a : Word) : s.popFrame.popped.word a = s.popFrame.word a := by
    rw [State.popped_eq hquiet, State.put_eq]
    rfl
  have hsize := s.length_frameSlots
  constructor
  · rw [State.popWord_eq hquiet, hword, hsp]
    unfold State.frameWord
    rw [show s.frameSize - 1 - 1 = s.frameSlots.length by omega]
  · rw [State.popWord_eq (State.popped_undisturbed hquiet), hword', hword, State.popped_readReg_sp, hsp]
    unfold State.frameWord
    rw [show s.frameSize - 1 - 0 = s.frameSlots.length + 1 by omega]
    exact congrArg s.word (by bv_omega)

/-- A property that a change of `SP` or of one of the frame's slots keeps, whatever the word, is kept by popping the
frame where nobody else writes. -/
theorem State.unframed_induction {motive : State → Prop} {s : State} (h : s.undisturbed) (hs : motive s)
    (hput : ∀ t, t.cfg = s.cfg → t.status = s.status → ∀ slot ∈ .reg regSp :: s.frameSlots, ∀ v, motive t →
      motive (t.put slot v)) :
    motive s.unframed := by
  have hquiet : s.popFrame.undisturbed := by
    rw [State.popFrame_eq h]
    exact State.foldl_popTo_undisturbed h _
  have hslots : motive s.popFrame := by
    rw [State.popFrame_eq h]
    exact State.foldl_popTo_induction h hs hput
  have hpopped := hput s.popFrame (by simp) (by simp) (.reg regSp) (List.mem_cons_self ..)
    (s.popFrame.readReg regSp + 4) hslots
  rw [← State.popped_eq hquiet] at hpopped
  unfold State.unframed
  rw [State.popped_eq (State.popped_undisturbed hquiet)]
  exact hput _ (by simp) (by simp) (.reg regSp) (List.mem_cons_self ..) _ hpopped

/-- Popping the frame changes the CPU registers alone. -/
theorem State.unframed_frame {s : State} (h : s.undisturbed) : s.unframed = { s with cpu := s.unframed.cpu } := by
  refine State.unframed_induction (motive := fun t => t = { s with cpu := t.cpu }) h rfl ?_
  intro t _ _ slot _ v ht
  rw [State.put_eq, ht]

/-- Popping the frame moves `SP` up by its size. -/
theorem State.unframed_readReg_sp {s : State} (h : s.undisturbed) (hnr : s.irq.ctrl.nr.toNat ≤ maxIrqPairs) :
    s.unframed.readReg regSp = s.readReg regSp + BitVec.ofNat 32 (4 * s.frameSize) := by
  unfold State.unframed
  rw [State.popped_readReg_sp, State.popped_readReg_sp, State.popFrame_eq h,
    State.foldl_popTo_readReg_sp h (State.sp_not_mem_frameSlots hnr), ← s.length_frameSlots]
  bv_omega

/-- Popping the frame leaves `USER_SP` and `BTA` alone. -/
theorem State.unframed_userSp_bta {s : State} (h : s.undisturbed) :
    s.unframed.cpu.userSp = s.cpu.userSp ∧ s.unframed.cpu.bta = s.cpu.bta := by
  refine State.unframed_induction (motive := fun t => t.cpu.userSp = s.cpu.userSp ∧ t.cpu.bta = s.cpu.bta) h
    ⟨rfl, rfl⟩ ?_
  intro t _ _ slot _ v ht
  simpa using ht

/-- After the frame a slot that it does not hold is as it was. -/
theorem State.unframed_get_other {s : State} (h : s.undisturbed) {slot : FrameSlot}
    (hslot : slot ∉ .reg regSp :: s.frameSlots) : s.unframed.get slot = s.get slot := by
  refine State.unframed_induction (motive := fun t => t.get slot = s.get slot) h rfl ?_
  intro t _ _ other hother v ht
  exact (t.get_put_other v fun he : slot = other => hslot (he ▸ hother)).trans ht

/-- After the frame a slot other than `SP` holds what the pops into slots left in it. -/
theorem State.unframed_get {s : State} (h : s.undisturbed) {slot : FrameSlot} (hsp : slot ≠ .reg regSp) :
    s.unframed.get slot = (s.frameSlots.foldl State.popTo s).get slot := by
  have hquiet : s.popFrame.undisturbed := by
    rw [State.popFrame_eq h]
    exact State.foldl_popTo_undisturbed h _
  unfold State.unframed
  rw [State.popped_eq (State.popped_undisturbed hquiet), State.get_put_other _ _ hsp, State.popped_eq hquiet,
    State.get_put_other _ _ hsp, State.popFrame_eq h]

/-- After the frame a slot holds its word: counted from the highest address, the one that as many pops follow
(43_interrupts R258, R262). -/
theorem State.unframed_get_word {s : State} (h : s.undisturbed) (hnr : s.irq.ctrl.nr.toNat ≤ maxIrqPairs)
    {before after : List FrameSlot} {slot : FrameSlot} (hslots : s.frameSlots = before ++ slot :: after)
    (hafter : slot ∉ after) {k : Nat} (hk : before.length + 1 + k = s.frameSize) :
    s.unframed.get slot = s.frameWord k := by
  have hsp := State.sp_not_mem_frameSlots hnr
  rw [hslots] at hsp
  have hne : slot ≠ .reg regSp := by
    rintro rfl
    exact hsp (List.mem_append_right _ (List.mem_cons_self ..))
  rw [State.unframed_get h hne, hslots, State.foldl_popTo_get h hsp hafter]
  unfold State.frameWord
  rw [show s.frameSize - 1 - k = before.length by omega]

/-- A group of three slots holds three words in a row, the first popped the lowest (43_interrupts R258, R262). -/
theorem State.unframed_get_group {s : State} (h : s.undisturbed) (hnr : s.irq.ctrl.nr.toNat ≤ maxIrqPairs)
    {before after : List FrameSlot} {a b c : FrameSlot} (hslots : s.frameSlots = before ++ a :: b :: c :: after)
    (hnodup : (a :: b :: c :: after).Nodup) {k : Nat} (hk : before.length + 3 + k = s.frameSize) :
    s.unframed.get c = s.frameWord k ∧ s.unframed.get b = s.frameWord (k + 1) ∧
      s.unframed.get a = s.frameWord (k + 2) := by
  obtain ⟨ha, hnodup⟩ := List.nodup_cons.1 hnodup
  obtain ⟨hb, hnodup⟩ := List.nodup_cons.1 hnodup
  obtain ⟨hc, -⟩ := List.nodup_cons.1 hnodup
  have hlast : (before ++ [a, b]).length + 1 + k = s.frameSize := by
    simp only [List.length_append, List.length_cons, List.length_nil]
    omega
  have hmiddle : (before ++ [a]).length + 1 + (k + 1) = s.frameSize := by
    simp only [List.length_append, List.length_cons, List.length_nil]
    omega
  exact ⟨State.unframed_get_word h hnr (by simp [hslots]) hc hlast,
    State.unframed_get_word h hnr (by simp [hslots]) hb hmiddle, State.unframed_get_word h hnr hslots ha (by omega)⟩

/-- The code-density registers after the frame (43_interrupts R262). -/
theorem State.unframed_bases {s : State} (h : s.undisturbed) (hnr : s.irq.ctrl.nr.toNat ≤ maxIrqPairs) :
    (s.savesBases = true → s.unframed.cpu.eiBase = s.frameWord 2 ∧ s.unframed.cpu.ldiBase = s.frameWord 3 ∧
      s.unframed.cpu.jliBase = s.frameWord 4) ∧
    (s.savesBases = false → s.unframed.cpu.eiBase = s.cpu.eiBase ∧ s.unframed.cpu.ldiBase = s.cpu.ldiBase ∧
      s.unframed.cpu.jliBase = s.cpu.jliBase) := by
  constructor
  · intro hb
    have hslots : s.frameSlots =
        (regsSlots s.savedRegs ++ s.blinkSlots ++ s.loopSlots) ++ [.jliBase, .ldiBase, .eiBase] := by
      simp only [State.frameSlots, State.basesSlots, hb, if_true]
    have hlen := s.length_frameSlots
    rw [hslots, List.length_append, List.length_cons, List.length_cons, List.length_cons, List.length_nil] at hlen
    exact State.unframed_get_group (k := 2) h hnr hslots (by simp) (by omega)
  · intro hb
    exact ⟨State.unframed_get_other (slot := .eiBase) h (by simp [State.mem_frameSlots, hb]),
      State.unframed_get_other (slot := .ldiBase) h (by simp [State.mem_frameSlots, hb]),
      State.unframed_get_other (slot := .jliBase) h (by simp [State.mem_frameSlots, hb])⟩

/-- The loop registers after the frame (43_interrupts R262). -/
theorem State.unframed_loop {s : State} (h : s.undisturbed) (hnr : s.irq.ctrl.nr.toNat ≤ maxIrqPairs) {m : Nat}
    (hm : m = 2 + 3 * s.savesBases.toNat) :
    (s.savesLoop = true → s.unframed.cpu.lpCount = s.frameWord m ∧ s.unframed.cpu.lpStart = s.frameWord (m + 1) ∧
      s.unframed.cpu.lpEnd = s.frameWord (m + 2)) ∧
    (s.savesLoop = false → s.unframed.cpu.lpCount = s.cpu.lpCount ∧ s.unframed.cpu.lpStart = s.cpu.lpStart ∧
      s.unframed.cpu.lpEnd = s.cpu.lpEnd) := by
  constructor
  · intro hl
    have hslots : s.frameSlots =
        (regsSlots s.savedRegs ++ s.blinkSlots) ++ .lpEnd :: .lpStart :: .lpCount :: s.basesSlots := by
      simp [State.frameSlots, State.loopSlots, hl]
    have hnodup : (FrameSlot.lpEnd :: .lpStart :: .lpCount :: s.basesSlots).Nodup := by
      unfold State.basesSlots
      cases s.savesBases <;> simp
    have hlen := s.length_frameSlots
    rw [hslots, List.length_append, List.length_cons, List.length_cons, List.length_cons,
      State.length_basesSlots] at hlen
    exact State.unframed_get_group (k := m) h hnr hslots hnodup (by omega)
  · intro hl
    exact ⟨State.unframed_get_other (slot := .lpCount) h (by simp [State.mem_frameSlots, hl]),
      State.unframed_get_other (slot := .lpStart) h (by simp [State.mem_frameSlots, hl]),
      State.unframed_get_other (slot := .lpEnd) h (by simp [State.mem_frameSlots, hl])⟩

/-- The groups that are popped after the registers hold none. -/
theorem State.reg_not_mem_groups (s : State) (i : Fin 32) : .reg i ∉ s.loopSlots ++ s.basesSlots := by
  simp [State.loopSlots, State.basesSlots]

/-- `BLINK` after the frame (43_interrupts R262). -/
theorem State.unframed_blink {s : State} (h : s.undisturbed) (hnr : s.irq.ctrl.nr.toNat ≤ maxIrqPairs) :
    s.unframed.readReg regBlink =
      if s.irq.ctrl.b then s.frameWord (s.frameSize - 1 - 2 * s.irq.ctrl.nr.toNat) else s.readReg regBlink := by
  split
  · next hb =>
    have hslots : s.frameSlots = regsSlots s.savedRegs ++ .reg regBlink :: (s.loopSlots ++ s.basesSlots) := by
      simp [State.frameSlots, State.blinkSlots, hb]
    have hlen := s.length_frameSlots
    rw [hslots, List.length_append, List.length_cons, length_regsSlots] at hlen
    refine State.unframed_get_word (slot := .reg regBlink) h hnr hslots (s.reg_not_mem_groups _) ?_
    rw [length_regsSlots]
    unfold State.savedRegs at hlen ⊢
    omega
  · next hb =>
    have hsp : regBlink ≠ regSp := by decide
    have hout : .reg regBlink ∉ s.frameSlots := fun hmem => by
      unfold maxIrqPairs at hnr
      obtain ⟨k, hk, he⟩ | ⟨hb', -⟩ := State.reg_mem_frameSlots.1 hmem
      · exact ofNat_ne_of_ge (by omega) (by decide) he
      · exact hb hb'
    exact State.unframed_get_other (slot := .reg regBlink) h (by simp [hsp, hout])

/-- Register `k` is popped after those above it and before those below it. -/
theorem regsSlots_split {n k : Nat} (h : k < n) :
    ∃ above, regsSlots n = above ++ .reg (Fin.ofNat 32 k) :: regsSlots k ∧ above.length + 1 + k = n := by
  induction n with
  | zero => exact absurd h (Nat.not_lt_zero k)
  | succ n ih =>
    have hlast : regsSlots (n + 1) = .reg (Fin.ofNat 32 n) :: regsSlots n := by
      simp [regsSlots, List.range_succ]
    obtain hlt | rfl : k < n ∨ k = n := by omega
    · obtain ⟨above, hsplit, hlen⟩ := ih hlt
      exact ⟨.reg (Fin.ofNat 32 n) :: above, by rw [hlast, hsplit, List.cons_append], by simp; omega⟩
    · exact ⟨[], hlast, by simp; omega⟩

/-- The registers pushed in pairs after the frame (43_interrupts R262). -/
theorem State.unframed_regs {s : State} (h : s.undisturbed) (hnr : s.irq.ctrl.nr.toNat ≤ maxIrqPairs) {k : Nat}
    (hk : k < 2 * s.irq.ctrl.nr.toNat) :
    s.unframed.readReg (Fin.ofNat 32 k) = s.frameWord (s.frameSize - 2 * s.irq.ctrl.nr.toNat + k) := by
  have hk28 : k < 28 := by unfold maxIrqPairs at hnr; omega
  obtain ⟨above, hsplit, habove⟩ := regsSlots_split (n := s.savedRegs) hk
  have hslots : s.frameSlots =
      above ++ .reg (Fin.ofNat 32 k) :: (regsSlots k ++ s.blinkSlots ++ (s.loopSlots ++ s.basesSlots)) := by
    simp [State.frameSlots, hsplit]
  have hbelow : .reg (Fin.ofNat 32 k) ∉ regsSlots k := by
    simp only [regsSlots, List.mem_map, List.mem_reverse, List.mem_range, FrameSlot.reg.injEq, not_exists, not_and]
    intro j hj he
    have := congrArg Fin.val he
    simp only [Fin.val_ofNat] at this
    omega
  have hblink : .reg (Fin.ofNat 32 k) ∉ s.blinkSlots := by
    simp only [State.blinkSlots, List.mem_ite_nil_right, List.mem_singleton, FrameSlot.reg.injEq, not_and]
    exact fun _ => ofNat_ne_of_ge hk28 (by decide)
  have hafter : .reg (Fin.ofNat 32 k) ∉ regsSlots k ++ s.blinkSlots ++ (s.loopSlots ++ s.basesSlots) := by
    rw [List.mem_append, List.mem_append]
    rintro ((hm | hm) | hm)
    · exact hbelow hm
    · exact hblink hm
    · exact s.reg_not_mem_groups _ hm
  have hsize := s.frameSize_eq
  refine State.unframed_get_word (slot := .reg (Fin.ofNat 32 k)) h hnr hslots hafter ?_
  unfold State.savedRegs at habove
  omega

/-- After the frame the registers outside it are as they were, in both banks. -/
theorem State.unframed_others {s : State} (h : s.undisturbed) {i : Fin 32} (hsp : i ≠ regSp) (hblink : i ≠ regBlink)
    (hi : 2 * s.irq.ctrl.nr.toNat ≤ i.val) (rb : Bool) : s.unframed.regInBank rb i = s.regInBank rb i := by
  have hout : .reg i ∉ s.frameSlots := fun hmem => by
    obtain ⟨k, hk, he⟩ | ⟨-, he⟩ := State.reg_mem_frameSlots.1 hmem
    · have hval : k % 32 = i.val := congrArg Fin.val he
      have := Nat.mod_le k 32
      omega
    · exact hblink he
  have hkept : .reg i ∉ .reg regSp :: s.frameSlots := by simp [hsp, hout]
  refine State.unframed_induction (motive := fun t => t.regInBank rb i = s.regInBank rb i) h rfl ?_
  intro t _ _ slot hslot v ht
  exact (t.regInBank_put_other (fun he : .reg i = slot => hkept (he ▸ hslot)) v rb).trans ht

/-- After the frame the banked registers of the bank that is not selected are as they were (10_state R23). -/
theorem State.unframed_otherBank {s : State} (h : s.undisturbed) {i : Fin 32} (hi : isBanked s.cfg i = true) :
    s.unframed.regInBank (!s.status.rb) i = s.regInBank (!s.status.rb) i := by
  refine State.unframed_induction (motive := fun t => t.regInBank (!s.status.rb) i = s.regInBank (!s.status.rb) i) h
    rfl ?_
  intro t hcfg hst slot _ v ht
  have hput := t.regInBank_put_otherBank (hcfg ▸ hi) slot v
  rw [hst] at hput
  exact hput.trans ht

/-- The regular return, whole (43_interrupts R262): the frame is popped from the stack it lies on, and the stack is
switched unless that was the stack of the mode returned to. -/
theorem State.regularReturn_eq {s : State} (hwf : s.cfg.wf = true) (h : s.undisturbed)
    (hnr : s.irq.ctrl.nr.toNat ≤ maxIrqPairs) (p : Nat) :
    s.regularReturn p =
      { s with
        cpu := ((s.switchSpIf s.userFrame).unframed.switchSpIf
          ((unpackStatus s.cfg ((s.switchSpIf s.userFrame).frameWord 0)).u && !s.userFrame)).cpu
        status := unpackStatus s.cfg ((s.switchSpIf s.userFrame).frameWord 0)
        irq.act := clearAct s.irq.act p
        irq.actU := s.irq.actU && decide (clearAct s.irq.act p ≠ 0)
        out.nextPc := some ((s.switchSpIf s.userFrame).frameWord 1) } := by
  have hquiet : (s.switchSpIf s.userFrame).undisturbed := by simpa [State.undisturbed] using h
  obtain ⟨hreturnAddress, hstatusWord⟩ :=
    State.popWord_popFrame (s := s.switchSpIf s.userFrame) hquiet (by simpa using hnr)
  have hframe : (s.switchSpIf s.userFrame).unframed =
      { s with cpu := (s.switchSpIf s.userFrame).unframed.cpu } := by
    refine (State.unframed_frame hquiet).trans ?_
    rw [State.switchSpIf_eq]
  have hcfg := congrArg State.cfg hframe
  have hunframed : (s.switchSpIf s.userFrame).popFrame.popped.popped = (s.switchSpIf s.userFrame).unframed := rfl
  unfold State.regularReturn
  dsimp only
  rw [hreturnAddress, hstatusWord, hunframed, hcfg, State.switchSpIf_eq]
  unfold State.clearLevel State.jump
  dsimp only
  refine State.eq_of_fields rfl ?cpu rfl ?_ ?_ ?_ ?_ ?_ ?_ ?_ ?_ ?_ ?_
  case cpu =>
    refine State.switchSpIf_cpu_anyBank (s := (s.switchSpIf s.userFrame).unframed) (hcfg ▸ hwf) ?_ ?_ _
    · exact hcfg.symm
    · rfl
  all_goals rw [hframe]

/-- A bitmap with one bit set has no other (00_scope section 5). -/
theorem popcount_eq_one {b : BitVec 16} {p : Nat} (hp : b.getLsbD p = true) :
    popcount b = 1 ↔ ∀ q < 16, b.getLsbD q = decide (q = p) := by
  have hlt : p < 16 := BitVec.lt_of_getLsbD hp
  unfold popcount
  constructor
  · intro hone q hq
    rw [List.countP_eq_length_filter] at hone
    obtain ⟨a, ha⟩ := List.length_eq_one_iff.1 hone
    have hbit (r : Nat) : r ∈ (List.range 16).filter (fun q => b.getLsbD q) ↔ r = a := by
      rw [ha, List.mem_singleton]
    simp only [List.mem_filter, List.mem_range] at hbit
    have hpa : p = a := (hbit p).1 ⟨hlt, hp⟩
    by_cases hqp : q = p
    · simpa [hqp] using hp
    · simpa [hqp] using fun hset => hqp (((hbit q).1 ⟨hq, hset⟩).trans hpa.symm)
  · intro hbits
    have hcount : (List.range 16).countP (fun q => b.getLsbD q) = (List.range 16).count p :=
      List.countP_congr fun q hq => by simp [hbits q (List.mem_range.1 hq)]
    rw [hcount]
    exact List.count_eq_one_of_mem List.nodup_range (List.mem_range.2 hlt)

/-- The frame lies on the user stack exactly when `IRQ_CTRL.U` put it there, the entry came from user mode and the level
is the only one active (43_interrupts R262). -/
theorem State.userFrame_eq {s : State} {p : Nat} (hp : s.irq.act.getLsbD p = true) :
    s.userFrame =
      (s.irq.ctrl.u && s.irq.actU && (List.range 16).all fun q => s.irq.act.getLsbD q == decide (q = p)) := by
  unfold State.userFrame
  congr 1
  rw [Bool.eq_iff_iff]
  simp [popcount_eq_one hp]

/-- A RETURN from a level that the regular path serves (43_interrupts R260, 60_exceptions R296). -/
theorem exec_ret_regular {s : State} {p : Nat} (h : returnsFrom s p) :
    exec .ret s = .next (s.clearOut.regularReturn p) := by
  obtain ⟨hae, hp, hbelow, hregular⟩ := h
  have hslow : ¬s.clearOut.isFast p = true := by
    unfold State.isFast
    simpa using hregular
  rw [exec_ret_interrupt hae (lsb?_eq_some.2 ⟨BitVec.lt_of_getLsbD hp, hp, hbelow⟩)]
  exact congrArg _ (if_neg hslow)

/-- The words of the frame after the switch to the stack it lies on are those of memory before. -/
theorem State.frameWord_switchSpIf (s : State) (b : Bool) (k : Nat) :
    (s.switchSpIf b).frameWord k =
      s.word ((if b then s.cpu.userSp else s.readReg regSp) + BitVec.ofNat 32 (4 * (s.frameSize - 1 - k))) := by
  unfold State.frameWord
  rw [State.switchSpIf_readReg_sp]
  unfold State.word State.frameSize
  simp

/-- The groups of a frame do not depend on the stack it lies on. -/
theorem State.frame_switchSpIf (s : State) (b : Bool) :
    (s.switchSpIf b).savesBases = s.savesBases ∧ (s.switchSpIf b).savesLoop = s.savesLoop ∧
      (s.switchSpIf b).frameSize = s.frameSize := by
  simp [State.savesBases, State.savesLoop, State.frameSize]

section
variable {s t : State} {onUser b : Bool}

/-- The code-density registers once the frame is popped from the stack it lies on and the stack switched back
(43_interrupts R262). -/
theorem State.returned_bases (hwf : s.cfg.wf = true) (h : s.undisturbed) (hnr : s.irq.ctrl.nr.toNat ≤ maxIrqPairs)
    (hswitch : StackSwitched b (s.switchSpIf onUser).unframed t) :
    (s.savesBases = true → t.cpu.eiBase = (s.switchSpIf onUser).frameWord 2 ∧
      t.cpu.ldiBase = (s.switchSpIf onUser).frameWord 3 ∧ t.cpu.jliBase = (s.switchSpIf onUser).frameWord 4) ∧
    (s.savesBases = false →
      t.cpu.eiBase = s.cpu.eiBase ∧ t.cpu.ldiBase = s.cpu.ldiBase ∧ t.cpu.jliBase = s.cpu.jliBase) := by
  have hstack := stackSwitched_of_cpu (t := s.switchSpIf onUser) hwf (by simp) rfl
  have hpopped := State.unframed_bases (s := s.switchSpIf onUser) (by simpa [State.undisturbed] using h)
    (by simpa using hnr)
  obtain ⟨hbases, -, -⟩ := s.frame_switchSpIf onUser
  rw [hbases, hstack.rest] at hpopped
  rw [hswitch.rest]
  exact hpopped

/-- The loop registers likewise (43_interrupts R262). -/
theorem State.returned_loop (hwf : s.cfg.wf = true) (h : s.undisturbed) (hnr : s.irq.ctrl.nr.toNat ≤ maxIrqPairs)
    (hswitch : StackSwitched b (s.switchSpIf onUser).unframed t) {m : Nat} (hm : m = 2 + 3 * s.savesBases.toNat) :
    (s.savesLoop = true → t.cpu.lpCount = (s.switchSpIf onUser).frameWord m ∧
      t.cpu.lpStart = (s.switchSpIf onUser).frameWord (m + 1) ∧
      t.cpu.lpEnd = (s.switchSpIf onUser).frameWord (m + 2)) ∧
    (s.savesLoop = false →
      t.cpu.lpCount = s.cpu.lpCount ∧ t.cpu.lpStart = s.cpu.lpStart ∧ t.cpu.lpEnd = s.cpu.lpEnd) := by
  have hstack := stackSwitched_of_cpu (t := s.switchSpIf onUser) hwf (by simp) rfl
  obtain ⟨hbases, hloop, -⟩ := s.frame_switchSpIf onUser
  have hpopped := State.unframed_loop (s := s.switchSpIf onUser) (by simpa [State.undisturbed] using h)
    (by simpa using hnr) (hbases ▸ hm)
  rw [hloop, hstack.rest] at hpopped
  rw [hswitch.rest]
  exact hpopped

/-- The registers that are not in the frame likewise, in both banks, and of the banked ones the other bank's copies. -/
theorem State.returned_kept (hwf : s.cfg.wf = true) (h : s.undisturbed)
    (hswitch : StackSwitched b (s.switchSpIf onUser).unframed t) :
    (∀ i, isBanked s.cfg i = true → i ≠ regSp →
      t.regInBank (!s.status.rb) i = s.regInBank (!s.status.rb) i) ∧
    (∀ i, i ≠ regSp → i ≠ regBlink → 2 * s.irq.ctrl.nr.toNat ≤ i.val → ∀ rb, t.regInBank rb i = s.regInBank rb i) ∧
    t.cpu.bta = s.cpu.bta := by
  have hstack := stackSwitched_of_cpu (t := s.switchSpIf onUser) hwf (by simp) rfl
  have hquiet : (s.switchSpIf onUser).undisturbed := by simpa [State.undisturbed] using h
  refine ⟨fun i hi hsp => ?otherBank, fun i hsp hblink hi rb => ?others, ?bta⟩
  case otherBank =>
    have hpopped := State.unframed_otherBank hquiet (i := i) (by simpa using hi)
    rw [State.switchSpIf_status] at hpopped
    rw [hswitch.others i hsp, hpopped, hstack.others i hsp]
  case others =>
    rw [hswitch.others i hsp, State.unframed_others hquiet hsp hblink (by simpa using hi), hstack.others i hsp]
  case bta => rw [hswitch.rest, (State.unframed_userSp_bta hquiet).2, hstack.rest]

/-- The registers of the frame likewise: `BLINK`, which is not banked, and the pairs in the bank of the handler
(43_interrupts R262). -/
theorem State.returned_regs (hwf : s.cfg.wf = true) (h : s.undisturbed) (hnr : s.irq.ctrl.nr.toNat ≤ maxIrqPairs)
    (hswitch : StackSwitched b (s.switchSpIf onUser).unframed t) :
    (∀ rb, t.regInBank rb regBlink = if s.irq.ctrl.b then
      (s.switchSpIf onUser).frameWord (s.frameSize - 1 - 2 * s.irq.ctrl.nr.toNat) else s.readReg regBlink) ∧
    (∀ k < 2 * s.irq.ctrl.nr.toNat, t.regInBank s.status.rb (Fin.ofNat 32 k) =
      (s.switchSpIf onUser).frameWord (s.frameSize - 2 * s.irq.ctrl.nr.toNat + k)) := by
  have hstack := stackSwitched_of_cpu (t := s.switchSpIf onUser) hwf (by simp) rfl
  have hquiet : (s.switchSpIf onUser).undisturbed := by simpa [State.undisturbed] using h
  have hlegal : (s.switchSpIf onUser).irq.ctrl.nr.toNat ≤ maxIrqPairs := by simpa using hnr
  have hframe := State.unframed_frame hquiet
  have hbank : (s.switchSpIf onUser).unframed.status.rb = s.status.rb := by rw [hframe]; simp
  obtain ⟨-, -, hsize⟩ := s.frame_switchSpIf onUser
  refine ⟨fun rb => ?blink, fun k hk => ?pairs⟩
  case blink =>
    have hsp : regBlink ≠ regSp := by decide
    have hsame : (s.switchSpIf onUser).readReg regBlink = s.readReg regBlink := by
      rw [← State.regInBank_selected, hstack.others _ hsp, State.switchSpIf_status, State.regInBank_selected]
    have hpopped := State.unframed_blink hquiet hlegal
    rw [State.switchSpIf_irq, hsize, hsame] at hpopped
    rw [hswitch.others _ hsp, State.regInBank_unbanked, hpopped]
    rw [hframe]
    simpa using not_banked hwf (.inr (.inr rfl))
  case pairs =>
    have hk28 : k < 28 := by unfold maxIrqPairs at hnr; omega
    have hpopped := State.unframed_regs hquiet hlegal (k := k) (by simpa using hk)
    rw [State.switchSpIf_irq, hsize] at hpopped
    rw [hswitch.others _ (ofNat_ne_of_ge hk28 (by decide)), ← hbank, State.regInBank_selected, hpopped]

/-- The stack pointers likewise (43_interrupts R262, 10_state R24). -/
theorem State.returned_pointers (hwf : s.cfg.wf = true) (h : s.undisturbed)
    (hnr : s.irq.ctrl.nr.toNat ≤ maxIrqPairs) (hcfg : t.cfg = s.cfg)
    (hswitch : StackSwitched b (s.switchSpIf onUser).unframed t) :
    (t.readReg regSp, t.cpu.userSp) =
      (let popped := (if onUser then s.cpu.userSp else s.readReg regSp) + BitVec.ofNat 32 (4 * s.frameSize)
       let other := if onUser then s.readReg regSp else s.cpu.userSp
       if b then (other, popped) else (popped, other)) := by
  have hstack := stackSwitched_of_cpu (t := s.switchSpIf onUser) hwf (by simp) rfl
  have hquiet : (s.switchSpIf onUser).undisturbed := by simpa [State.undisturbed] using h
  have hlegal : (s.switchSpIf onUser).irq.ctrl.nr.toNat ≤ maxIrqPairs := by simpa using hnr
  have hpoppedCfg : (s.switchSpIf onUser).unframed.cfg = s.cfg := by rw [State.unframed_frame hquiet]; simp
  obtain ⟨-, -, hsize⟩ := s.frame_switchSpIf onUser
  rw [stackSwitched_readReg_sp (hpoppedCfg ▸ hwf) (hcfg.trans hpoppedCfg.symm) hswitch, hswitch.userSp,
    State.unframed_readReg_sp hquiet hlegal, (State.unframed_userSp_bta hquiet).1, State.switchSpIf_readReg_sp, hsize,
    hstack.userSp]
  cases b <;> rfl

end

/-- Settles O55: the regular return's one equation, and what each register holds once the frame is popped. -/
theorem regularReturnPopsTheFrame : Obligations.RegularReturnPopsTheFrame := by
  rintro s p _ _ onUser w hinv hquiet hreturns honUser rfl hw rfl
  have hwf := hinv.cfg
  have ⟨_, hactive, _, _⟩ := hreturns
  obtain rfl : w = (s.clearOut.switchSpIf onUser).frameWord :=
    funext fun k => (hw k).trans (s.clearOut.frameWord_switchSpIf onUser k).symm
  have hreturn := State.regularReturn_eq (s := s.clearOut) hwf hquiet hinv.nr p
  rw [(State.userFrame_eq (s := s.clearOut) hactive).trans honUser.symm] at hreturn
  refine ⟨_, exec_ret_regular hreturns, ?_⟩
  generalize s.clearOut.regularReturn p = t at *
  have hcfg : t.cfg = s.cfg := by rw [hreturn]; rfl
  have hstatus : t.status = unpackStatus s.cfg ((s.clearOut.switchSpIf onUser).frameWord 0) := by rw [hreturn]; rfl
  have hswitch : StackSwitched (t.status.u && !onUser) (s.clearOut.switchSpIf onUser).unframed t := by
    have hpoppedCfg : (s.clearOut.switchSpIf onUser).unframed.cfg = s.cfg := by
      rw [State.unframed_frame (by simpa [State.undisturbed] using hquiet)]
      simp
    rw [hstatus, hreturn]
    exact stackSwitched_of_cpu (hpoppedCfg ▸ hwf) hpoppedCfg.symm rfl
  obtain ⟨hbases, hbasesKept⟩ := State.returned_bases (s := s.clearOut) hwf hquiet hinv.nr hswitch
  obtain ⟨hloop, hloopKept⟩ := State.returned_loop (s := s.clearOut) hwf hquiet hinv.nr hswitch rfl
  obtain ⟨hblink, hpairs⟩ := State.returned_regs (s := s.clearOut) hwf hquiet hinv.nr hswitch
  obtain ⟨hotherBank, hothers, hbta⟩ := State.returned_kept (s := s.clearOut) hwf hquiet hswitch
  refine ⟨by rw [hreturn]; rfl, ?bases, ?basesKept, ?loop, ?loopKept, hblink, hpairs, ?otherBank, hothers,
    State.returned_pointers (s := s.clearOut) hwf hquiet hinv.nr hcfg hswitch, hbta⟩
  case bases =>
    intro hpresent hsaved
    exact hbases (Bool.and_eq_true_iff.2 ⟨hpresent, hsaved⟩)
  case basesKept =>
    intro habsent
    exact hbasesKept (Bool.eq_false_iff.2 fun hsaved => habsent (Bool.and_eq_true_iff.1 hsaved))
  case loop =>
    intro hpresent hsaved
    exact hloop (Bool.and_eq_true_iff.2 ⟨hpresent, hsaved⟩)
  case loopKept =>
    intro habsent
    exact hloopKept (Bool.eq_false_iff.2 fun hsaved => habsent (Bool.and_eq_true_iff.1 hsaved))
  case otherBank =>
    intro hbanks k hk hset
    have hk28 : k < 28 := by
      have := hinv.nr
      unfold maxIrqPairs at this
      omega
    have hbanked : isBanked s.cfg (Fin.ofNat 32 k) = true := by
      simp [isBanked, hbanks, Nat.mod_eq_of_lt (show k < 32 by omega), hset]
    exact hotherBank _ hbanked (ofNat_ne_of_ge hk28 (by decide))

end Sys2Proof.Machine
end

section
/-! SUPPORT. The status word as a whole (30_encoding R106), and the requests that take an exception, return from one and
read or write the status word (60_exceptions R285, R296, R297, R300, R301). -/

namespace Sys2Proof.Machine

/-- A bit of a word, put back where it stood, is what a one-bit mask leaves of the word. -/
theorem bitAt_getLsbD (w : Word) (k : Nat) : bitAt (w.getLsbD k) k = w &&& BitVec.twoPow 32 k := by
  rw [BitVec.and_twoPow, BitVec.twoPow_eq]
  rfl

/-- The bits that `unpack_status` takes are those of the layout, and the packer puts each back (30_encoding R106). -/
theorem packStatus_unpackStatus (cfg : Config) (w : Word) :
    packStatus (unpackStatus cfg w) = w &&& statusMask cfg := by
  have hrb : bitAt (unpackStatus cfg w).rb 16 = w &&& if cfg.numBanks = 2 then BitVec.twoPow 32 16 else 0 := by
    by_cases hbanks : cfg.numBanks = 2
    · simp only [unpackStatus, hbanks, decide_true, Bool.true_and, if_true, bitAt_getLsbD]
    · simp [unpackStatus, hbanks, bitAt]
  unfold packStatus
  rw [hrb]
  simp only [unpackStatus, bitAt_getLsbD, ← BitVec.and_or_distrib_left]
  congr 1
  unfold statusMask
  split <;> rfl

/-- The vectors that latch the faulting `PC`, as vectors (60_exceptions R290). -/
theorem efaValue_eq (vector : Byte) (faddr pc : Word) :
    efaValue vector faddr pc = if vector ∈ ([0, 1, 2, 3, 7, 8, 9] : List Byte) then pc else faddr :=
  if_congr (List.mem_map_of_injective BitVec.toNat_injective (l := ([0, 1, 2, 3, 7, 8, 9] : List Byte))) rfl rfl

/-- The other agents' moves do not depend on the outputs. -/
@[simp] theorem State.agentsMove_clearOut (s : State) : s.clearOut.agentsMove = s.agentsMove.clearOut := by
  unfold State.agentsMove
  cases h : s.otherAgents <;> simp [h, State.clearOut]

/-- A RAISE with no exception active is the entry (60_exceptions R285, R293). -/
theorem exec_raise_normal {s : State} (hae : s.status.ae = false) (v c p : Byte) (a pc rpc : Word) :
    exec (.raise v c p a pc rpc) s =
      .next { s with
        cpu := (s.switchSpIf s.status.u).cpu
        mem := s.agentsMove.mem
        otherAgents := s.agentsMove.otherAgents
        exc := { s.exc with
          erstatus := packStatus s.status, erbta := s.cpu.bta, eret := rpc, ecr := causeWord v c p,
          efa := efaValue v a pc }
        status := exceptionStatus s.status
        out := { Outputs.none with
          nextPc := some (s.agentsMove.word (s.exc.ivb + (v.setWidth 32 <<< 2)))
          fault := some { vector := v, cause := c, param := p, faddr := a } } } := by
  have hcpu := State.switchSpIf_cpu_congr (s := s) (t := s.clearOut) s.status.u rfl rfl rfl
  have hentry := State.raise_normal (s := s.clearOut) hae v c p a pc rpc
  rw [State.clearOut_status, hcpu, State.agentsMove_clearOut] at hentry
  exact (exec_effect _ s).trans (congrArg _ hentry)

/-- Settles O40: the entry's one equation, its registers those of the stack-pointer switch. -/
theorem raiseEntersTheException : Obligations.RaiseEntersTheException := by
  intro s vector cause param faddr pc retPc hwf hae
  refine ⟨_, exec_raise_normal hae vector cause param faddr pc retPc, ?_, stackSwitched_of_cpu hwf rfl rfl⟩
  rw [efaValue_eq]
  rfl

/-- A RETURN with an exception active returns from the exception (60_exceptions R296). -/
theorem exec_ret_exception {s : State} (hae : s.status.ae = true) :
    exec .ret s = .next s.clearOut.exceptionReturn :=
  (exec_effect _ s).trans (congrArg _ (if_pos hae))

/-- A RETURN with neither an exception nor an interrupt active is refused (60_exceptions R296). -/
theorem exec_ret_nothingActive {s : State} (hae : s.status.ae = false) (hact : s.irq.act = 0) :
    exec .ret s = .next (s.refuse .returnNothingActive) := by
  have hreturn : s.clearOut.return = s.clearOut.refuse .returnNothingActive := by
    simp [State.return, hae, lsb?_eq_none.2 hact]
  exact (exec_effect _ s).trans (congrArg _ hreturn)

/-- Settles O42: the exception return's one equation, where the stack is switched by the unpacked status. -/
theorem returnLeavesTheException : Obligations.ReturnLeavesTheException := by
  intro s hwf
  refine ⟨fun hae => ⟨_, exec_ret_exception hae, ?_⟩, exec_ret_nothingActive⟩
  rw [State.exceptionReturn_eq]
  refine ⟨rfl, stackSwitched_of_cpu hwf rfl ?_⟩
  refine State.switchSpIf_cpu_anyBank (s := { s with cpu.bta := s.exc.erbta }) hwf ?_ ?_ _ <;> rfl

/-- Settles O47: the written fields are the unpacked ones, and packing them loses the reserved bits alone. -/
theorem statusWordWritesAndReadsWhole : Obligations.StatusWordWritesAndReadsWhole := by
  intro s w
  refine ⟨exec_effect .statusRead s, _, exec_effect (.statusWrite w) s, rfl, ?_, rfl, rfl, rfl, rfl⟩
  exact packStatus_unpackStatus s.cfg w

end Sys2Proof.Machine
end

section
/-! SUPPORT. The decoder by the header word (30_encoding R91, R92, R104): which headers name a request, and that decoding
undoes encoding (R128, R129). -/

namespace Sys2Proof

/-- The fields of a request whose header was made of a request code and a `KIND` (30_encoding R91). -/
theorem Request.fields_of_headerOf {r : Request} {op : BitVec 4} {kind : BitVec 2} (h : r.header = headerOf op kind) :
    r.opField = op ∧ r.kindField = kind ∧ r.reservedField = 0 := by
  unfold Request.opField Request.kindField Request.reservedField
  rw [h]
  exact headerOf_fields op kind

/-- A header whose reserved bits are 0 is made of its two fields (30_encoding R91). -/
theorem Request.header_eq_headerOf {r : Request} (h : r.reservedField = 0) :
    r.header = headerOf r.opField r.kindField := by
  have hhigh : ∀ k, 6 ≤ k → r.header.getLsbD k = false := fun k hk => by
    have hbit := congrArg (fun b => b.getLsbD (k - 6)) h
    by_cases hlt : k < 32
    · simpa [Request.reservedField, show k - 6 < 26 by omega, show 6 + (k - 6) = k by omega] using hbit
    · exact BitVec.getLsbD_of_ge _ _ (by omega)
  ext k hk
  rw [← BitVec.getLsbD_eq_getElem hk, ← BitVec.getLsbD_eq_getElem hk]
  simp only [headerOf, Request.opField, Request.kindField, BitVec.getLsbD_append, BitVec.getLsbD_extractLsb']
  by_cases hop : k < 4
  · simp [hop]
  · by_cases hkind : k < 6
    · simp [hop, show k - 4 < 2 by omega, show 4 + (k - 4) = k by omega]
    · simp [hop, show ¬k - 4 < 2 by omega, hhigh k (by omega)]

/-- A `TRANSLATE` header decodes by its access kind (30_encoding R104). -/
theorem decode_translate {r : Request} {kind : BitVec 2} (h : r.header = headerOf 0x1 kind) (cfg : Config) :
    decode cfg r = decodeTranslate kind r.op0 r.op1 := by
  obtain ⟨hop, hkind, hreserved⟩ := Request.fields_of_headerOf h
  simp [decode, hop, hkind, hreserved]

/-- A header with another request code and no `KIND` decodes by that code (30_encoding R92). -/
theorem decode_of_op {cfg : Config} {r : Request} {op : BitVec 4} {d : Decoded} (hop : op ≠ 0x1)
    (hheader : r.header = headerOf op 0) (hoperands : r.opField = op → decodeOp cfg r = d) : decode cfg r = d := by
  obtain ⟨rfl, hkind, hreserved⟩ := Request.fields_of_headerOf hheader
  unfold decode
  rw [if_neg fun h => h hreserved, if_neg hop, if_neg fun h => h hkind]
  exact hoperands rfl

/-- A write of a command's code to `TLBCOMMAND` is that command (30_encoding R129). -/
theorem decodeAuxWrite_command {cfg : Config} {id : Word} (h : cfg.auxReg? id = some .tlbcommand) (c : TlbCmd)
    (pc : Word) : decodeAuxWrite cfg id c.code pc = c.request pc := by
  simp [decodeAuxWrite, h, tlbCmd?_code]

/-- Any other write is the write itself (30_encoding R129). -/
theorem decodeAuxWrite_plain {cfg : Config} {id w : Word} (h : cfg.isPlainWrite id w = true) (pc : Word) :
    decodeAuxWrite cfg id w pc = .auxWrite id w pc := by
  unfold decodeAuxWrite
  split
  · next hid =>
    have hnone : tlbCmd? w = none := by simpa [Config.isPlainWrite, hid] using h
    rw [hnone]
  · rfl

/-- An `AUX_WRITE` decodes to the request that the written register and value name. -/
theorem decode_auxWrite {r : Request} (h : r.header = headerOf 0x3 0) (cfg : Config) :
    decode cfg r = .instr (decodeAuxWrite cfg r.op0 r.op1 r.op2) :=
  decode_of_op (op := 0x3) (by decide) h fun hop => by rw [decodeOp, hop]; rfl

/-- The words of a TLB command decode to the command, where the implementation numbers `TLBCOMMAND`. -/
theorem decode_command {cfg : Config} (h : cfg.canIssueCommands = true) (c : TlbCmd) (pc : Word) :
    decode cfg (Request.auxWrite (cfg.auxId .tlbcommand) c.code pc) = .instr (c.request pc) :=
  (decode_auxWrite rfl cfg).trans
    (congrArg _ (decodeAuxWrite_command (of_decide_eq_true h) c pc))

/-- Settles O4: a request's header gives its row of the table back, and its words the operands; the writes to
`TLBCOMMAND` are told apart by the well-formedness of the request. -/
theorem decodeReturnsTheEncodedRequest : Obligations.DecodeReturnsTheEncodedRequest := by
  intro cfg i hwf
  cases i with
  | translateFetch vaddr pc => exact decode_translate (r := encode cfg (.translateFetch vaddr pc)) (kind := 1) rfl cfg
  | translateRead vaddr pc => exact decode_translate (r := encode cfg (.translateRead vaddr pc)) (kind := 2) rfl cfg
  | translateWrite vaddr pc => exact decode_translate (r := encode cfg (.translateWrite vaddr pc)) (kind := 3) rfl cfg
  | auxWrite id w pc => exact (decode_auxWrite rfl cfg).trans (congrArg _ (decodeAuxWrite_plain hwf pc))
  | tlbcmdWrite pc => exact decode_command hwf .write pc
  | tlbcmdRead pc => exact decode_command hwf .read pc
  | tlbcmdWriteNi pc => exact decode_command hwf .writeNi pc
  | tlbcmdInsert pc => exact decode_command hwf .insert pc
  | tlbcmdDelete pc => exact decode_command hwf .delete pc
  | auxRead id pc => exact decode_of_op (op := 0x2) (by decide) rfl fun h => by rw [decodeOp, h]; rfl
  | irqPoll pc => exact decode_of_op (op := 0x4) (by decide) rfl fun h => by rw [decodeOp, h]; rfl
  | ret => exact decode_of_op (op := 0x5) (by decide) rfl fun h => by rw [decodeOp, h]; rfl
  | raise vector cause param faddr pc retPc =>
    refine decode_of_op (op := 0x6) (by decide) rfl fun h => ?_
    rw [decodeOp, h]
    simp [encode]
  | reset => exact decode_of_op (op := 0x7) (by decide) rfl fun h => by rw [decodeOp, h]; rfl
  | tlbFlushExt => exact decode_of_op (op := 0x8) (by decide) rfl fun h => by rw [decodeOp, h]; rfl
  | statusRead => exact decode_of_op (op := 0x9) (by decide) rfl fun h => by rw [decodeOp, h]; rfl
  | statusWrite w => exact decode_of_op (op := 0xA) (by decide) rfl fun h => by rw [decodeOp, h]; rfl
  | line src level =>
    refine decode_of_op (op := 0xB) (by decide) rfl fun h => ?_
    rw [decodeOp, h]
    cases level <;> simp [encode]

/-- The codes with a row of their own are 0x2 to 0xB (30_encoding R92). -/
theorem decodeOp_cases (cfg : Config) (r : Request) :
    if 0x2 ≤ r.opField.toNat ∧ r.opField.toNat ≤ 0xB then ∃ i, decodeOp cfg r = .instr i
    else decodeOp cfg r = .rejected .reservedRequest := by
  by_cases hrow : 0x2 ≤ r.opField.toNat ∧ r.opField.toNat ≤ 0xB
  · rw [if_pos hrow]
    unfold decodeOp
    split
    case h_11 =>
      simp only [imp_false] at *
      omega
    all_goals exact ⟨_, rfl⟩
  · rw [if_neg hrow]
    unfold decodeOp
    split
    case h_11 => rfl
    all_goals omega

/-- The reason a header is rejected for, none if it names a request (30_encoding R91, R104). -/
def headerRejection (header : Word) : Option RefuseReason :=
  if header ∈ requestHeaders then none
  else if header = 0x1 then some .reservedAccessKind
  else some .reservedRequest

/-- The rejections by the two fields, where the reserved bits are 0. -/
theorem headerRejection_headerOf (op : BitVec 4) (kind : BitVec 2) :
    headerRejection (headerOf op kind) =
      if op = 0x1 then if kind = 0 then some .reservedAccessKind else none
      else if kind = 0 ∧ 0x2 ≤ op.toNat ∧ op.toNat ≤ 0xB then none
      else some .reservedRequest := by
  revert op kind
  decide

/-- A header with a reserved bit set is no header of the table (30_encoding R91). -/
theorem headerRejection_of_reserved {r : Request} (h : r.reservedField ≠ 0) :
    headerRejection r.header = some .reservedRequest := by
  have hlegal : ∀ header ∈ (0x1 : Word) :: requestHeaders, header.extractLsb' 6 26 = 0 := by simp [requestHeaders]
  have hmem : r.header ∉ requestHeaders := fun hmem => h (hlegal _ (List.mem_cons_of_mem _ hmem))
  have hone : r.header ≠ 0x1 := fun hone => h (hlegal _ (hone ▸ List.mem_cons_self ..))
  exact (if_neg hmem).trans (if_neg hone)

/-- The decoder rejects exactly the headers that name no request, each for its reason (30_encoding R91, R104). -/
theorem decode_cases (cfg : Config) (r : Request) :
    (headerRejection r.header = none ∧ ∃ i, decode cfg r = .instr i) ∨
      ∃ reason, headerRejection r.header = some reason ∧ decode cfg r = .rejected reason := by
  by_cases hreserved : r.reservedField = 0
  · have hheader := Request.header_eq_headerOf hreserved
    rw [hheader, headerRejection_headerOf]
    by_cases hop : r.opField = 0x1
    · rw [hop] at hheader
      rw [decode_translate hheader, if_pos hop]
      obtain hkind | hkind | hkind | hkind :
          r.kindField = 0 ∨ r.kindField = 1 ∨ r.kindField = 2 ∨ r.kindField = 3 := by
        generalize r.kindField = kind
        revert kind
        decide
      all_goals rw [hkind]
      · exact .inr ⟨_, rfl, rfl⟩
      all_goals exact .inl ⟨rfl, _, rfl⟩
    · rw [if_neg hop]
      by_cases hkind : r.kindField = 0
      · rw [hkind] at hheader
        have hdecode : decode cfg r = decodeOp cfg r := decode_of_op hop hheader fun _ => rfl
        have hcases := decodeOp_cases cfg r
        rw [hdecode]
        split at hcases
        · next hrow => exact .inl ⟨if_pos ⟨hkind, hrow⟩, hcases⟩
        · next hrow => exact .inr ⟨_, if_neg fun h => hrow h.2, hcases⟩
      · refine .inr ⟨_, if_neg fun h => hkind h.1, ?_⟩
        unfold decode
        rw [if_neg fun h => h hreserved, if_neg hop, if_pos hkind]
  · exact .inr ⟨_, headerRejection_of_reserved hreserved, if_pos hreserved⟩

/-- Settles O3: the header's rejection is by three cases, and the decoder's answer by the rejection. -/
theorem headerNamesARequestExactlyWhen : Obligations.HeaderNamesARequestExactlyWhen := by
  intro cfg r
  have hnamed (h : headerRejection r.header = none) : ∃ i, decode cfg r = .instr i := by
    simpa [h] using decode_cases cfg r
  have hrejected {reason} (h : headerRejection r.header = some reason) : decode cfg r = .rejected reason := by
    simpa [h] using decode_cases cfg r
  by_cases hmem : r.header ∈ requestHeaders
  · have hone : r.header ≠ 0x1 := fun hone => absurd (hone ▸ hmem) (by decide)
    obtain ⟨i, hi⟩ := hnamed (if_pos hmem)
    rw [hi]
    exact ⟨iff_of_true ⟨i, rfl⟩ hmem, iff_of_false nofun hone, iff_of_false nofun fun h => h.2 hmem⟩
  · by_cases hone : r.header = 0x1
    · rw [hrejected ((if_neg hmem).trans (if_pos hone))]
      exact ⟨iff_of_false nofun hmem, iff_of_true rfl hone, iff_of_false nofun fun h => h.1 hone⟩
    · rw [hrejected ((if_neg hmem).trans (if_neg hone))]
      exact ⟨iff_of_false nofun hmem, iff_of_false nofun hone, iff_of_true rfl ⟨hone, hmem⟩⟩

/-- A decoded request other than a write is well formed, and a write is what `decodeAuxWrite` makes of its words. -/
theorem decode_eq_instr {cfg : Config} {r : Request} {i : Instr} (h : decode cfg r = .instr i) :
    (∀ cfg', WellFormed cfg' i = true) ∨ ∃ id w pc, i = decodeAuxWrite cfg id w pc := by
  unfold decode at h
  split at h
  · simp at h
  · split at h
    · unfold decodeTranslate at h
      split at h <;> simp at h <;> subst h <;> exact .inl fun _ => rfl
    · split at h
      · simp at h
      · unfold decodeOp at h
        split at h
        case h_2 => exact .inr ⟨_, _, _, (Decoded.instr.inj h).symm⟩
        all_goals simp at h
        all_goals subst h; exact .inl fun _ => rfl

/-- A command's request is well formed where `TLBCOMMAND` has a number. -/
theorem wellFormed_command {cfg : Config} (h : cfg.canIssueCommands = true) (c : TlbCmd) (pc : Word) :
    WellFormed cfg (c.request pc) = true := by
  cases c <;> exact h

/-- Settles O5: only the writes have a condition, and a write that issues a command decodes to the command. -/
theorem decodedRequestsAreWellFormed : Obligations.DecodedRequestsAreWellFormed := by
  intro cfg r i hcfg h
  obtain hwf | ⟨id, w, pc, rfl⟩ := decode_eq_instr h
  · exact hwf cfg
  · have hissue : cfg.canIssueCommands = true := decide_eq_true (Config.auxReg?_tlbcommand hcfg)
    cases hplain : cfg.isPlainWrite id w with
    | true =>
      rw [decodeAuxWrite_plain hplain]
      exact hplain
    | false =>
      obtain ⟨hid, hcommand⟩ : cfg.auxReg? id = some .tlbcommand ∧ (tlbCmd? w).isSome := by
        simpa [Config.isPlainWrite] using hplain
      obtain ⟨c, hc⟩ := Option.isSome_iff_exists.1 hcommand
      rw [tlbCmd?_eq_some.1 hc, decodeAuxWrite_command hid]
      exact wellFormed_command hissue c pc

/-- Settles O6: the header words are those of the table, and `PID` is not `TLBCOMMAND`. -/
theorem wordsOfTheSpecDecode : Obligations.WordsOfTheSpecDecode := by
  intro cfg hcfg
  have hpid : cfg.auxReg? (cfg.auxId .pid) = some .pid :=
    Config.auxReg?_auxId (Config.wf_auxIds hcfg) (Config.mem_of_numbered (Config.wf_auxIds hcfg) (by decide))
  have hplain : cfg.isPlainWrite (cfg.auxId .pid) 0x80000007 = true := by simp [Config.isPlainWrite, hpid]
  refine ⟨decode_translate (kind := 2) (by decide) cfg, decode_translate (kind := 3) (by decide) cfg,
    decode_translate (kind := 1) (by decide) cfg, ?insert, ?pid, ?raise, ?line, ?statusWrite⟩
  case insert =>
    exact (decode_auxWrite (show (0x3 : Word) = headerOf 0x3 0 by decide) cfg).trans
      (congrArg _ (decodeAuxWrite_command (Config.auxReg?_tlbcommand hcfg) .insert 0x1004))
  case pid =>
    exact (decode_auxWrite (show (0x3 : Word) = headerOf 0x3 0 by decide) cfg).trans
      (congrArg _ (decodeAuxWrite_plain hplain 0x100))
  case raise => exact decode_of_op (op := 0x6) (by decide) (by decide) fun h => by rw [decodeOp, h]; rfl
  case line => exact decode_of_op (op := 0xB) (by decide) (by decide) fun h => by rw [decodeOp, h]; rfl
  case statusWrite => exact decode_of_op (op := 0xA) (by decide) (by decide) fun h => by rw [decodeOp, h]; rfl

end Sys2Proof

namespace Sys2Proof.Machine

/-- Settles O1: the step takes the request and performs what it decodes to. -/
theorem stepPerformsTheDecodedRequest : Obligations.StepPerformsTheDecodedRequest := by
  intro s r rest i hinbox hdecode
  have htake : s.take = { s with inbox := rest } := by simp [State.take, hinbox]
  simp only [step, hinbox, hdecode, htake]

/-- Settles O2: the step takes the request and refuses it. -/
theorem stepRefusesAnUndecodableHeader : Obligations.StepRefusesAnUndecodableHeader := by
  intro s r rest reason hinbox hdecode
  have htake : s.take = { s with inbox := rest } := by simp [State.take, hinbox]
  simp only [step, hinbox, hdecode, htake]
  rfl

/-- Settles O7: a request's effect is on the state with the outputs cleared, which is the same whatever they were. -/
theorem everyRequestCompletesAndClearsTheOutputsFirst : Obligations.EveryRequestCompletesAndClearsTheOutputsFirst := by
  intro i s
  exact ⟨effect i s.clearOut, fun o => exec_effect i { s with out := o }⟩

end Sys2Proof.Machine
end

section
/-! SUPPORT. The layouts of the TLB's registers bit by bit (30_encoding R110, R111), and the descriptor words of an entry
(41_tlb R151). -/

namespace Sys2Proof.Machine

/-- A one-bit word as a number. -/
theorem toNat_one_shiftLeft {n : Nat} (h : n < 32) : (1#32 <<< n).toNat = 2 ^ n := by
  have hlt : 2 ^ n < 2 ^ 32 := Nat.pow_lt_pow_right (by decide) h
  rw [← BitVec.twoPow_eq, BitVec.toNat_twoPow]
  exact Nat.mod_eq_of_lt hlt

/-- `mask(n)` as a number (00_scope section 5). -/
theorem toNat_lowMask {n : Nat} (h : n ≤ 32) : (lowMask n).toNat = 2 ^ n - 1 := by
  obtain hlt | rfl : n < 32 ∨ n = 32 := by omega
  · have hone := toNat_one_shiftLeft hlt
    have hpos : 0 < 2 ^ n := Nat.two_pow_pos n
    unfold lowMask
    rw [BitVec.toNat_sub_of_le (by rw [BitVec.le_def, hone]; exact hpos), hone]
    rfl
  · rfl

/-- `mask(n)` bit by bit (00_scope section 5). -/
theorem getLsbD_lowMask {n : Nat} (h : n ≤ 32) (k : Nat) : (lowMask n).getLsbD k = decide (k < n) := by
  rw [BitVec.getLsbD, toNat_lowMask h, Nat.testBit_two_pow_sub_one]

/-- A flag at bit `j` is the only bit of its word. -/
theorem getLsbD_bitAt (b : Bool) {j : Nat} (h : j < 32) (k : Nat) :
    (bitAt b j).getLsbD k = (b && decide (k = j)) := by
  cases b with
  | false => simp [bitAt]
  | true =>
    have hone : bitAt true j = BitVec.twoPow 32 j := (BitVec.twoPow_eq 32 j).symm
    rw [hone, BitVec.getLsbD_twoPow]
    simp [h, eq_comm]

/-- The bits of `PD0` that hold a field: the page number and bits 12:0 (30_encoding R110). -/
theorem getLsbD_pd0Mask {cfg : Config} (h : cfg.pageBits ≤ 24) {k : Nat} (hk : k < 32) :
    (pd0Mask cfg).getLsbD k = (decide (cfg.pageBits ≤ k) || decide (k < 13)) := by
  have hlow : (0x1FFF#32) = lowMask 13 := by decide
  unfold pd0Mask
  rw [hlow, BitVec.getLsbD_or, BitVec.getLsbD_not, getLsbD_lowMask (by omega), getLsbD_lowMask (by omega),
    Bool.eq_iff_iff]
  simp [hk]

/-- The bits of `PD1` that hold a field: the page number and bits 8:2 (30_encoding R111). -/
theorem getLsbD_pd1Mask {cfg : Config} (h : cfg.pageBits ≤ 24) {k : Nat} (hk : k < 32) :
    (pd1Mask cfg).getLsbD k = (decide (cfg.pageBits ≤ k) || (decide (2 ≤ k) && decide (k < 9))) := by
  have hfield : (0x1FC#32) = lowMask 7 <<< 2 := by decide
  unfold pd1Mask
  rw [hfield, BitVec.getLsbD_or, BitVec.getLsbD_not, BitVec.getLsbD_shiftLeft, getLsbD_lowMask (by omega),
    getLsbD_lowMask (by omega), Bool.eq_iff_iff]
  simp [hk]
  omega

/-- The first descriptor word of an entry, bit by bit (30_encoding R110, 41_tlb R151). -/
theorem getLsbD_pd0Of {cfg : Config} (h13 : 13 ≤ cfg.pageBits) (e : TlbEntry) {k : Nat} (hk : k < 32) :
    (pd0Of cfg e).getLsbD k =
      if cfg.pageBits ≤ k then e.vpn.getLsbD (k - cfg.pageBits)
      else if k = 12 then e.s else if k = 11 then e.l else if k = 10 then e.sz else if k = 9 then e.v
      else if k = 8 then e.g else e.asid.getLsbD k := by
  unfold pd0Of
  simp only [BitVec.getLsbD_or, BitVec.getLsbD_shiftLeft, BitVec.getLsbD_setWidth, getLsbD_bitAt, hk,
    Nat.reduceLT]
  split
  · simp [show ¬k < cfg.pageBits by omega, show k ≠ 12 by omega, show k ≠ 11 by omega, show k ≠ 10 by omega,
      show k ≠ 9 by omega, show k ≠ 8 by omega, BitVec.getLsbD_of_ge e.asid k (by omega)]
  · simp only [show k < cfg.pageBits by omega]
    split_ifs <;> simp_all

/-- The second descriptor word of an entry, bit by bit (30_encoding R111, 41_tlb R151). -/
theorem getLsbD_pd1Of {cfg : Config} (h13 : 13 ≤ cfg.pageBits) (e : TlbEntry) {k : Nat} (hk : k < 32) :
    (pd1Of cfg e).getLsbD k =
      if cfg.pageBits ≤ k then e.ppn.getLsbD (k - cfg.pageBits)
      else if k = 2 then e.c else if k < 3 then false else e.perm.getLsbD (k - 3) := by
  unfold pd1Of
  simp only [BitVec.getLsbD_or, BitVec.getLsbD_shiftLeft, BitVec.getLsbD_setWidth, getLsbD_bitAt, hk,
    Nat.reduceLT]
  split
  · simp [show ¬k < cfg.pageBits by omega, show k ≠ 2 by omega, BitVec.getLsbD_of_ge e.perm (k - 3) (by omega)]
  · by_cases h3 : k < 3
    · simp [show k < cfg.pageBits by omega, h3, Bool.and_comm]
    · simp [show k < cfg.pageBits by omega, show k ≠ 2 by omega, h3, show k - 3 < 32 by omega]

/-- A page number that fits has no bit at or above its width (10_state R34). -/
theorem getLsbD_of_pageFits {cfg : Config} {n : Word} (h : pageFits cfg n) {k : Nat} (hk : 32 - cfg.pageBits ≤ k) :
    n.getLsbD k = false :=
  Nat.testBit_lt_two_pow (Nat.lt_of_lt_of_le h (Nat.pow_le_pow_right (by omega) hk))

/-- The page number of a word fits its width (10_state R34). -/
theorem pageFits_shiftRight {cfg : Config} (h : cfg.pageBits ≤ 24) (w : Word) : pageFits cfg (w >>> cfg.pageBits) := by
  have hpow : 2 ^ cfg.pageBits * 2 ^ (32 - cfg.pageBits) = 2 ^ 32 := by
    rw [← Nat.pow_add]
    congr 1
    omega
  unfold pageFits
  rw [BitVec.toNat_ushiftRight, Nat.shiftRight_eq_div_pow]
  exact Nat.div_lt_of_lt_mul (hpow ▸ w.isLt)

/-- A word whose bits lie at the page number gives the page number back. -/
theorem shiftRight_eq_of_page_bits {cfg : Config} {w n : Word} (hn : pageFits cfg n)
    (h : ∀ k, cfg.pageBits ≤ k → k < 32 → w.getLsbD k = n.getLsbD (k - cfg.pageBits)) : w >>> cfg.pageBits = n := by
  ext k hk
  rw [← BitVec.getLsbD_eq_getElem hk, ← BitVec.getLsbD_eq_getElem hk, BitVec.getLsbD_ushiftRight]
  by_cases hlt : cfg.pageBits + k < 32
  · rw [h _ (by omega) hlt, Nat.add_sub_cancel_left]
  · rw [BitVec.getLsbD_of_ge _ _ (by omega), getLsbD_of_pageFits hn (by omega)]

/-- An entry read into the descriptor words and back is the entry (41_tlb R151). -/
theorem toEntry_pd0Of_pd1Of {cfg : Config} (h13 : 13 ≤ cfg.pageBits) {e : TlbEntry} (hvpn : pageFits cfg e.vpn)
    (hppn : pageFits cfg e.ppn) : toEntry cfg (pd0Of cfg e) (pd1Of cfg e) = e := by
  have hv : pd0Vpn cfg (pd0Of cfg e) = e.vpn :=
    shiftRight_eq_of_page_bits hvpn fun k hpage hk => (getLsbD_pd0Of h13 e hk).trans (if_pos hpage)
  have hp : pd1Of cfg e >>> cfg.pageBits = e.ppn :=
    shiftRight_eq_of_page_bits hppn fun k hpage hk => (getLsbD_pd1Of h13 e hk).trans (if_pos hpage)
  have hasid : pd0Asid (pd0Of cfg e) = e.asid := by
    ext k hk
    rw [← BitVec.getLsbD_eq_getElem hk, ← BitVec.getLsbD_eq_getElem hk, pd0Asid, BitVec.getLsbD_setWidth,
      getLsbD_pd0Of h13 e (by omega), if_neg (by omega), if_neg (by omega), if_neg (by omega), if_neg (by omega),
      if_neg (by omega), if_neg (by omega)]
    simp [hk]
  have hperm : (pd1Of cfg e).extractLsb' 3 6 = e.perm := by
    ext k hk
    rw [← BitVec.getLsbD_eq_getElem hk, ← BitVec.getLsbD_eq_getElem hk, BitVec.getLsbD_extractLsb',
      getLsbD_pd1Of h13 e (by omega), if_neg (by omega), if_neg (by omega), if_neg (by omega), Nat.add_sub_cancel_left]
    simp [hk]
  have hc : (pd1Of cfg e).getLsbD 2 = e.c :=
    (getLsbD_pd1Of h13 e (by omega)).trans (by rw [if_neg (by omega), if_pos rfl])
  have hbit {k : Nat} (hk : k < 13) := (getLsbD_pd0Of h13 e (show k < 32 by omega)).trans (if_neg (by omega))
  have hbits : (pd0Of cfg e).getLsbD 12 = e.s ∧ (pd0Of cfg e).getLsbD 11 = e.l ∧ (pd0Of cfg e).getLsbD 10 = e.sz ∧
      (pd0Of cfg e).getLsbD 9 = e.v ∧ (pd0Of cfg e).getLsbD 8 = e.g :=
    ⟨hbit (by omega), hbit (by omega), hbit (by omega), hbit (by omega), hbit (by omega)⟩
  obtain ⟨hs, hl, hsz, hvalid, hg⟩ := hbits
  unfold toEntry pd0V
  rw [hv, hp, hasid, hperm, hc, hs, hl, hsz, hvalid, hg]

/-- The descriptor words of an entry made of two words are these words without their reserved bits (41_tlb R151). -/
theorem pdOf_toEntry {cfg : Config} (h13 : 13 ≤ cfg.pageBits) (h24 : cfg.pageBits ≤ 24) (a b : Word) :
    pd0Of cfg (toEntry cfg a b) = a &&& pd0Mask cfg ∧ pd1Of cfg (toEntry cfg a b) = b &&& pd1Mask cfg := by
  constructor
  · ext k hk
    rw [← BitVec.getLsbD_eq_getElem hk, ← BitVec.getLsbD_eq_getElem hk, getLsbD_pd0Of h13 _ hk, BitVec.getLsbD_and,
      getLsbD_pd0Mask h24 hk]
    by_cases hpage : cfg.pageBits ≤ k
    · simp [toEntry, pd0Vpn, hpage]
    · rw [if_neg hpage]
      split_ifs <;> simp_all [toEntry, pd0V, pd0Asid]
      rw [Bool.and_comm, Bool.eq_iff_iff]
      simp
      omega
  · ext k hk
    rw [← BitVec.getLsbD_eq_getElem hk, ← BitVec.getLsbD_eq_getElem hk, getLsbD_pd1Of h13 _ hk, BitVec.getLsbD_and,
      getLsbD_pd1Mask h24 hk]
    by_cases hpage : cfg.pageBits ≤ k
    · simp [toEntry, hpage]
    · rw [if_neg hpage]
      split_ifs <;> simp_all [toEntry]
      · omega
      · rw [Bool.and_comm, Bool.eq_iff_iff]
        simp
        omega

/-- Settles O24: both round trips, bit by bit. -/
theorem entriesAndDescriptorsRoundTrip : Obligations.EntriesAndDescriptorsRoundTrip := by
  intro cfg hcfg
  obtain ⟨h13, h24, -⟩ := (Config.wf_iff cfg).1 hcfg
  exact ⟨fun e hvpn hppn => toEntry_pd0Of_pd1Of h13 hvpn hppn, pdOf_toEntry h13 h24⟩

end Sys2Proof.Machine
end

section
/-! SUPPORT. The bounds and reserved bits that a sound state keeps (10_state R22, R34, R41; 30_encoding R107, R110, R111,
R118, R124), for each value that a request computes. -/

namespace Sys2Proof.Machine

/-- Only masked bits are set exactly when every set bit is in the mask. -/
theorem reserved_eq_zero_iff {w : Nat} {x m : BitVec w} :
    x &&& ~~~m = 0 ↔ ∀ k < w, x.getLsbD k = true → m.getLsbD k = true := by
  constructor
  · intro h k hk hx
    have hbit := congrArg (fun b => b.getLsbD k) h
    simpa [hx, hk] using hbit
  · intro h
    ext k hk
    have hbit := h k hk
    simp only [BitVec.getLsbD_eq_getElem hk] at hbit
    simpa using hbit

/-- A masked word has no reserved bit set. -/
theorem and_mask_reserved {w : Nat} (x m : BitVec w) : x &&& m &&& ~~~m = 0 := by
  simp [BitVec.and_assoc]

/-- The first descriptor word of an entry has no reserved bit set (30_encoding R110). -/
theorem pd0Of_reserved {cfg : Config} (hcfg : cfg.wf = true) (e : TlbEntry) : pd0Of cfg e &&& ~~~pd0Mask cfg = 0 := by
  obtain ⟨h13, h24, -⟩ := (Config.wf_iff cfg).1 hcfg
  refine reserved_eq_zero_iff.2 fun k hk hset => ?_
  rw [getLsbD_pd0Mask h24 hk]
  by_contra hreserved
  obtain ⟨hpage, hfield⟩ : k < cfg.pageBits ∧ 13 ≤ k := by simpa using hreserved
  rw [getLsbD_pd0Of h13 e hk, if_neg (by omega), if_neg (by omega), if_neg (by omega), if_neg (by omega),
    if_neg (by omega), if_neg (by omega), BitVec.getLsbD_of_ge _ _ (by omega)] at hset
  exact absurd hset (by simp)

/-- The second descriptor word of an entry has no reserved bit set (30_encoding R111). -/
theorem pd1Of_reserved {cfg : Config} (hcfg : cfg.wf = true) (e : TlbEntry) : pd1Of cfg e &&& ~~~pd1Mask cfg = 0 := by
  obtain ⟨h13, h24, -⟩ := (Config.wf_iff cfg).1 hcfg
  refine reserved_eq_zero_iff.2 fun k hk hset => ?_
  rw [getLsbD_pd1Mask h24 hk]
  by_contra hreserved
  obtain ⟨hpage, hfield⟩ : k < cfg.pageBits ∧ (2 ≤ k → 9 ≤ k) := by simpa using hreserved
  rw [getLsbD_pd1Of h13 e hk, if_neg (by omega), if_neg (by omega)] at hset
  split at hset
  · exact absurd hset (by simp)
  · rw [BitVec.getLsbD_of_ge _ _ (by omega)] at hset
    exact absurd hset (by simp)

/-- The `PD0` that a miss stages has no reserved bit set (41_tlb R147). -/
theorem stagedPd0_reserved {cfg : Config} (hcfg : cfg.wf = true) (vaddr : Word) (asid : Byte) :
    stagedPd0 cfg vaddr asid &&& ~~~pd0Mask cfg = 0 := by
  have hentry : stagedPd0 cfg vaddr asid =
      pd0Of cfg { TlbEntry.reset with vpn := vpnOf cfg vaddr, v := true, asid := asid } := by
    simp [stagedPd0, pd0Of, TlbEntry.reset, bitAt]
  rw [hentry]
  exact pd0Of_reserved hcfg _

/-- The page numbers of an entry fit their width (10_state R34). -/
def TlbEntry.Fits (cfg : Config) (e : TlbEntry) : Prop := pageFits cfg e.vpn ∧ pageFits cfg e.ppn

/-- The page numbers of an entry made of two descriptor words fit their width. -/
theorem toEntry_fits {cfg : Config} (hcfg : cfg.wf = true) (a b : Word) : (toEntry cfg a b).Fits cfg := by
  obtain ⟨-, h24, -⟩ := (Config.wf_iff cfg).1 hcfg
  exact ⟨pageFits_shiftRight h24 a, pageFits_shiftRight h24 b⟩

/-- Bits 31:24 of a cause word are 0 (30_encoding R107). -/
theorem causeWord_lt (v c p : Byte) : (causeWord v c p).toNat < 2 ^ 24 := by
  unfold causeWord
  rw [BitVec.toNat_or, BitVec.toNat_or]
  refine Nat.or_lt_two_pow (Nat.or_lt_two_pow ?_ ?_) ?_
  · simp [Nat.shiftLeft_eq]
    omega
  · simp [Nat.shiftLeft_eq]
    omega
  · simp
    omega

/-- Bits 31:24 of a violation's record are 0 (30_encoding R118). -/
theorem mpuEcrWord_lt (kind : AccessKind) {region : Nat} (h : region ≤ 16) :
    (mpuEcrWord kind region).toNat < 2 ^ 24 := by
  unfold mpuEcrWord
  rw [BitVec.toNat_or, BitVec.toNat_or]
  refine Nat.or_lt_two_pow (Nat.or_lt_two_pow (by decide) ?_) ?_
  · cases kind <;> decide
  · simp
    omega

/-- The priorities below `NUM_PRIO` (30_encoding R124). -/
theorem getLsbD_actMask {cfg : Config} (h : cfg.numPrio ≤ 16) {p : Nat} (hp : p < 16) :
    (actMask cfg).getLsbD p = decide (p < cfg.numPrio) := by
  simp [actMask, getLsbD_lowMask (show cfg.numPrio ≤ 32 by omega), hp]

/-- A level's bit. -/
theorem getLsbD_level {p : Nat} (hp : p < 16) (q : Nat) : (1#16 <<< p).getLsbD q = decide (q = p) := by
  rw [← BitVec.twoPow_eq, BitVec.getLsbD_twoPow, decide_eq_true hp, Bool.true_and]
  exact decide_eq_decide.2 eq_comm

/-- Setting a level below `NUM_PRIO` keeps the bitmap below it (30_encoding R124). -/
theorem setAct_reserved {cfg : Config} (h : cfg.numPrio ≤ 16) {act : BitVec 16} (hact : act &&& ~~~actMask cfg = 0)
    {p : Nat} (hp : p < cfg.numPrio) : setAct act p &&& ~~~actMask cfg = 0 := by
  rw [reserved_eq_zero_iff] at hact ⊢
  intro k hk hset
  unfold setAct at hset
  rw [BitVec.getLsbD_or, Bool.or_eq_true] at hset
  obtain hold | hnew := hset
  · exact hact k hk hold
  · rw [getLsbD_level (Nat.lt_of_lt_of_le hp h), decide_eq_true_iff] at hnew
    rw [getLsbD_actMask h hk, hnew]
    exact decide_eq_true hp

/-- Clearing levels keeps the bitmap below `NUM_PRIO` (30_encoding R124). -/
theorem clearAct_reserved {cfg : Config} {act : BitVec 16} (hact : act &&& ~~~actMask cfg = 0) (p : Nat) :
    clearAct act p &&& ~~~actMask cfg = 0 := by
  unfold clearAct
  rw [BitVec.and_assoc, BitVec.and_comm (~~~(1#16 <<< p)), ← BitVec.and_assoc, hact]
  exact BitVec.zero_and

/-- A clamped priority is below `NUM_PRIO` (43_interrupts R233). -/
theorem clampPrio_lt {cfg : Config} (hcfg : cfg.wf = true) (w : Word) : (clampPrio cfg w).toNat < cfg.numPrio := by
  obtain ⟨-, -, -, hone, -⟩ := (Config.wf_iff cfg).1 hcfg
  have hmod := Nat.mod_le (min (w.setWidth 4).toNat (cfg.numPrio - 1)) (2 ^ 4)
  have hmin := Nat.min_le_right (w.setWidth 4).toNat (cfg.numPrio - 1)
  unfold clampPrio
  rw [BitVec.toNat_ofNat]
  omega

/-- With one bank an unpacked status word selects the first (10_state R22). -/
theorem unpackStatus_rb {cfg : Config} (h : cfg.numBanks ≠ 2) (w : Word) : (unpackStatus cfg w).rb = false := by
  simp [unpackStatus, h]

end Sys2Proof.Machine
end

section
/-! SUPPORT. Everything a request can do: it refuses, it raises an exception, or it completes. What each of the three
leaves alone is said here once, and every statement about all requests is read off it (30_encoding R93 to R96). -/

namespace Sys2Proof.Machine

/-! ### Refusals -/

/-- A refusal keeps a state sound. -/
theorem State.Inv.refuse {s : State} (h : s.Inv) (reason : RefuseReason) : (s.refuse reason).Inv := { h with }

/-! ### Raises -/

/-- What taking an exception does, on either path (60_exceptions R284, R285, R288, R302). -/
structure Raised (s t : State) : Prop where
  cfg : t.cfg = s.cfg
  inbox : t.inbox = s.inbox
  refused : t.refused = s.refused
  refusal : t.out.refusal = s.out.refusal
  irq : t.irq = s.irq
  mem : t.mem = s.agentsMove.mem
  otherAgents : t.otherAgents = s.agentsMove.otherAgents
  victims : t.tlb.rr = s.tlb.rr
  kernel : t.status.u = false ∧ t.status.ie = false ∧ t.status.ae = true ∧ t.status.h = false
  flags : t.status.v = s.status.v ∧ t.status.c = s.status.c ∧ t.status.n = s.status.n ∧ t.status.z = s.status.z
  fault : ∃ f, t.out.fault = some f ∧ t.exc.ecr = causeWord f.vector f.cause f.param
  target : t.out.nextPc.isSome = true
  sound : s.Inv → t.Inv

theorem raised_raise (s : State) (v c p : Byte) (a pc rpc : Word) : Raised s (s.raise v c p a pc rpc) := by
  cases hae : s.status.ae with
  | false =>
    rw [State.raise_normal hae]
    exact
      { cfg := rfl, inbox := rfl, refused := rfl, refusal := rfl, irq := rfl, mem := rfl, otherAgents := rfl
        victims := rfl, kernel := ⟨rfl, rfl, rfl, rfl⟩, flags := ⟨rfl, rfl, rfl, rfl⟩, fault := ⟨_, rfl, rfl⟩
        target := rfl
        sound := fun h => { h with mem := State.agentsMove_wf h.mem, ecr := causeWord_lt v c p } }
  | true =>
    rw [State.raise_double hae]
    exact
      { cfg := rfl, inbox := rfl, refused := rfl, refusal := rfl, irq := rfl, mem := rfl, otherAgents := rfl
        victims := rfl, kernel := ⟨rfl, rfl, hae, rfl⟩, flags := ⟨rfl, rfl, rfl, rfl⟩, fault := ⟨_, rfl, rfl⟩
        target := rfl
        sound := fun h => { h with mem := State.agentsMove_wf h.mem, ecr := causeWord_lt _ _ _ } }

/-- A raise after `PD0` was staged or `MPU_ECR` recorded is a raise of the state before (41_tlb R147, 42_mpu R196). -/
theorem Raised.of_recorded {s t : State} {pd0 ecr : Word}
    (h : Raised { s with tlb.pd0 := pd0, mpu.ecr := ecr } t)
    (hsound : s.Inv → State.Inv { s with tlb.pd0 := pd0, mpu.ecr := ecr }) : Raised s t := by
  obtain ⟨hmem, hothers⟩ := State.agentsMove_congr (s := s) (t := { s with tlb.pd0 := pd0, mpu.ecr := ecr }) rfl rfl
  exact { h with mem := h.mem.trans hmem, otherAgents := h.otherAgents.trans hothers, sound := h.sound ∘ hsound }

/-! ### Completions -/

/-- An operation that touches neither the mode nor memory, neither an input nor a mark, and leaves `ECR` alone. -/
structure Quiet (s t : State) : Prop where
  cfg : t.cfg = s.cfg
  inbox : t.inbox = s.inbox
  refused : t.refused = s.refused
  refusal : t.out.refusal = s.out.refusal
  fault : t.out.fault = s.out.fault
  ecr : t.exc.ecr = s.exc.ecr
  status : t.status = s.status
  lines : t.irq.lines = s.irq.lines
  irqReq : t.irq.irqReq = s.irq.irqReq
  mem : t.mem = s.mem
  otherAgents : t.otherAgents = s.otherAgents

/-- What a request keeps that neither refuses nor raises, with the exceptions the rules name. -/
structure Completes (i : Instr) (s t : State) : Prop where
  cfg : t.cfg = s.cfg
  inbox : t.inbox = s.inbox
  refused : t.refused = s.refused
  refusal : t.out.refusal = s.out.refusal
  fault : t.out.fault = s.out.fault
  ecr : t.exc.ecr = s.exc.ecr
  inputs : (∀ src level, i ≠ .line src level) → t.irq.lines = s.irq.lines ∧ t.irq.irqReq = s.irq.irqReq
  mem : (∀ pc, i ≠ .irqPoll pc) → s.undisturbed → t.mem = s.mem ∧ t.undisturbed
  victims : WellFormed s.cfg i = true → (∀ pc, i ≠ .tlbcmdInsert pc) → i ≠ .reset → t.tlb.rr = s.tlb.rr
  mode : i ≠ .ret → (∀ w, i ≠ .statusWrite w) → s.status.u = false → t.status.u = false
  flags : i ≠ .ret → (∀ w, i ≠ .statusWrite w) → i ≠ .reset →
    t.status.v = s.status.v ∧ t.status.c = s.status.c ∧ t.status.n = s.status.n ∧ t.status.z = s.status.z
  sound : s.Inv → t.Inv

/-- A request whose operation is quiet completes. -/
theorem Quiet.completes {s t : State} (h : Quiet s t) (hsound : s.Inv → t.Inv) {i : Instr}
    (hvictims : WellFormed s.cfg i = true → (∀ pc, i ≠ .tlbcmdInsert pc) → i ≠ .reset → t.tlb.rr = s.tlb.rr) :
    Completes i s t :=
  { h with
    inputs := fun _ => ⟨h.lines, h.irqReq⟩
    mem := fun _ hquiet => ⟨h.mem, h.otherAgents.trans hquiet⟩
    victims := hvictims
    mode := fun _ _ hu => h.status ▸ hu
    flags := fun _ _ _ => by rw [h.status]; exact ⟨rfl, rfl, rfl, rfl⟩
    sound := hsound }

/-- Everything a request can do to a state. -/
def Ends (i : Instr) (s t : State) : Prop := (∃ reason, t = s.refuse reason) ∨ Raised s t ∨ Completes i s t

/-- A state that differs only where a quiet operation may change it. -/
theorem Quiet.of_frame {s t : State}
    (h : t = { s with
      cpu := t.cpu, exc := { t.exc with ecr := s.exc.ecr }, tlb := t.tlb, mpu := t.mpu
      irq := { t.irq with lines := s.irq.lines, irqReq := s.irq.irqReq }
      out := { t.out with fault := s.out.fault, refusal := s.out.refusal } }) : Quiet s t := by
  rw [h]
  exact ⟨rfl, rfl, rfl, rfl, rfl, rfl, rfl, rfl, rfl, rfl, rfl⟩

theorem ends_refuse (i : Instr) (s : State) (reason : RefuseReason) : Ends i s (s.refuse reason) := .inl ⟨reason, rfl⟩

theorem ends_raise (i : Instr) (s : State) (v c p : Byte) (a pc rpc : Word) : Ends i s (s.raise v c p a pc rpc) :=
  .inr (.inl (raised_raise s v c p a pc rpc))

/-- A change of the outputs of a translation or a read completes. -/
theorem ends_grant (i : Instr) (s : State) (a : Word) (p : BitVec 3) (c g : Bool) : Ends i s (s.grant a p c g) :=
  have hquiet : Quiet s (s.grant a p c g) := .of_frame rfl
  .inr (.inr (hquiet.completes (fun h => { h with }) fun _ _ _ => rfl))

theorem ends_answer (i : Instr) (s : State) (w : Word) : Ends i s (s.answer w) :=
  have hquiet : Quiet s (s.answer w) := .of_frame rfl
  .inr (.inr (hquiet.completes (fun h => { h with }) fun _ _ _ => rfl))

end Sys2Proof.Machine
end

section
/-! SUPPORT. The ends of a translation (40_router R133) and of an auxiliary access (30_encoding R97, R98). -/

namespace Sys2Proof.Machine

/-! ### Translations -/

theorem tlbMiss_ends (i : Instr) (s : State) (kind : AccessKind) (vaddr pc : Word) :
    Ends i s (s.tlbMiss kind vaddr pc) := by
  refine .inr (.inl (Raised.of_recorded (ecr := s.mpu.ecr) (raised_raise _ _ _ _ _ _ _) fun h => ?_))
  exact { h with pd0 := stagedPd0_reserved h.cfg vaddr s.tlb.pid.asid }

theorem tlbHit_ends (i : Instr) (s : State) (e : TlbEntry) (kind : AccessKind) (vaddr pc : Word) :
    Ends i s (s.tlbHit e kind vaddr pc) := by
  unfold State.tlbHit
  dsimp only
  split
  · exact ends_refuse _ _ _
  · split
    · exact ends_grant _ _ _ _ _ _
    · exact ends_raise _ _ _ _ _ _ _ _

theorem tlbTranslate_ends (i : Instr) (s : State) (kind : AccessKind) (vaddr pc : Word) :
    Ends i s (s.tlbTranslate kind vaddr pc) := by
  unfold State.tlbTranslate
  dsimp only
  split
  · exact tlbMiss_ends i s kind vaddr pc
  · exact tlbHit_ends i s _ kind vaddr pc
  · exact ends_raise _ _ _ _ _ _ _ _

theorem mpuCheck_ends (i : Instr) (s : State) (kind : AccessKind) (vaddr pc : Word) :
    Ends i s (s.mpuCheck kind vaddr pc) := by
  unfold State.mpuCheck
  dsimp only
  split
  · exact ends_grant _ _ _ _ _ _
  · refine .inr (.inl (Raised.of_recorded (pd0 := s.tlb.pd0) (raised_raise _ _ _ _ _ _ _) fun h => ?_))
    exact { h with mpuEcr := mpuEcrWord_lt kind ((s.findRegion_le vaddr).trans (Config.wf_regions h.cfg)) }

theorem translate_ends (i : Instr) (s : State) (kind : AccessKind) (vaddr pc : Word) :
    Ends i s.clearOut (s.translate kind vaddr pc) := by
  unfold State.translate
  dsimp only
  split
  · exact ends_grant _ _ _ _ _ _
  · exact tlbTranslate_ends _ _ _ _ _
  · exact mpuCheck_ends _ _ _ _ _
  · exact ends_raise _ _ _ _ _ _ _ _

/-! ### The privilege check and reads -/

theorem kernelOnly_ends {i : Instr} {s : State} {pc : Word} {act : State → State} (h : Ends i s (act s)) :
    Ends i s (s.kernelOnly pc act) := by
  unfold State.kernelOnly
  split
  · exact ends_raise _ _ _ _ _ _ _ _
  · exact h

theorem auxReadKernel_ends (i : Instr) (s : State) (id pc : Word) : Ends i s (s.auxReadKernel id pc) := by
  unfold State.auxReadKernel
  split
  · exact ends_refuse _ _ _
  · split
    · exact ends_raise _ _ _ _ _ _ _ _
    · exact ends_answer _ _ _

/-! ### TLB commands -/

/-- No command touches anything but the TLB and the flush list (41_tlb R150). -/
theorem quiet_tlbCommand (s : State) (c : TlbCmd) : Quiet s (s.tlbCommand c) := by
  cases c with
  | write | read | writeNi => exact .of_frame rfl
  | insert =>
    change Quiet s s.tlbInsert
    cases hv : pd0V s.tlb.pd0 with
    | true =>
      rw [State.tlbInsert_valid hv, State.invalidateWays_eq]
      exact .of_frame rfl
    | false =>
      rw [State.tlbInsert_invalid hv]
      exact .of_frame rfl
  | delete =>
    change Quiet s s.tlbDelete
    rw [State.tlbDelete_eq rfl]
    exact .of_frame rfl

/-- No command but INSERT moves a victim pointer (41_tlb R162). -/
theorem State.tlbCommand_rr (s : State) {c : TlbCmd} (h : c ≠ .insert) : (s.tlbCommand c).tlb.rr = s.tlb.rr := by
  cases c with
  | write | read | writeNi => rfl
  | insert => exact absurd rfl h
  | delete =>
    change s.tlbDelete.tlb.rr = s.tlb.rr
    rw [State.tlbDelete_eq rfl]

/-- Writing a slot with an entry whose page numbers fit keeps every slot's fitting (10_state R34). -/
theorem State.fits_setEntry {s : State} {cfg : Config} (h : ∀ st way, (s.entry st way).Fits cfg) {e : TlbEntry}
    (he : e.Fits cfg) (st st' : BitVec 8) (way way' : BitVec 2) : ((s.setEntry st way e).entry st' way').Fits cfg := by
  rw [State.entry_setEntry]
  split
  · exact he
  · exact h st' way'

/-- A change of the entries, the victim pointers and `TLBINDEX` keeps a state sound if the page numbers still fit. -/
theorem State.Inv.of_entries {s t : State} (h : s.Inv)
    (hframe : t = { s with
      tlb.entries := t.tlb.entries, tlb.rr := t.tlb.rr, tlb.index := t.tlb.index, out := t.out })
    (hfits : ∀ st way, (t.entry st way).Fits s.cfg) : t.Inv := by
  rw [hframe] at hfits ⊢
  exact { h with pages := hfits }

/-- Every command keeps a state sound. -/
theorem State.Inv.tlbCommand {s : State} (h : s.Inv) (c : TlbCmd) : (s.tlbCommand c).Inv := by
  have hnew := toEntry_fits h.cfg s.tlb.pd0 s.tlb.pd1
  cases c with
  | write | writeNi => exact h.of_entries rfl fun st way => State.fits_setEntry h.pages hnew _ st _ way
  | read => exact { h with pd0 := pd0Of_reserved h.cfg _, pd1 := pd1Of_reserved h.cfg _ }
  | insert =>
    change s.tlbInsert.Inv
    cases hv : pd0V s.tlb.pd0 with
    | true =>
      rw [State.tlbInsert_valid hv]
      refine h.of_entries (by rw [State.invalidateWays_eq]; rfl) fun st way => ?_
      rw [State.entry_insertAt_invalidateWays]
      split
      · exact hnew
      · split <;> exact h.pages st way
    | false =>
      rw [State.tlbInsert_invalid hv]
      exact { h with }
  | delete =>
    change s.tlbDelete.Inv
    refine h.of_entries (by rw [State.tlbDelete_eq rfl]) fun st way => ?_
    rw [State.tlbDelete_eq rfl]
    change ((s.invalidateWays s.pd0Set s.search).entry st way).Fits s.cfg
    rw [State.entry_invalidateWays]
    split <;> exact h.pages st way

theorem tlbCommand_ends {i : Instr} {s : State} {c : TlbCmd}
    (hc : c = .insert → WellFormed s.cfg i = true → ∃ pc, i = .tlbcmdInsert pc) : Ends i s (s.tlbCommand c) := by
  refine .inr (.inr ((quiet_tlbCommand s c).completes (fun h => h.tlbCommand c) fun hwf hinsert _ => ?_))
  refine s.tlbCommand_rr fun hc' => ?_
  obtain ⟨pc, hi⟩ := hc hc' hwf
  exact hinsert pc hi

/-! ### Writes -/

/-- Changing a source keeps a state sound if its priority stays in range (10_state R41). -/
theorem State.Inv.setSource {s : State} (h : s.Inv) {n : Nat} {e : IrqSource}
    (he : n < s.cfg.numIrq → e.prio.toNat < s.cfg.numPrio) : (s.setSource n e).Inv := by
  refine { h with prio := fun m hm => ?_ }
  have hm240 : m < 240 := by
    have := Config.numIrq_le h.cfg
    simp only [State.setSource_cfg] at hm
    omega
  by_cases hmn : m = n
  · subst hmn
    rw [State.source_setSource_self _ _ hm240]
    exact he hm
  · rw [State.source_setSource_other _ _ hmn]
    exact h.prio m hm

/-- A write of a register completes, or it is refused or raises where the register's rule says so (30_encoding R98). -/
theorem auxStore_ends {s : State} {id w pc : Word} {r : AuxReg} (hr : s.cfg.auxReg? id = some r) :
    Ends (.auxWrite id w pc) s (s.auxStore w pc r) := by
  have hquiet {t : State} (hq : Quiet s t) (hsound : s.Inv → t.Inv) (hrr : t.tlb.rr = s.tlb.rr) :
      Ends (.auxWrite id w pc) s t := .inr (.inr (hq.completes hsound fun _ _ _ => hrr))
  cases r with
  | pd0 => exact hquiet (.of_frame rfl) (fun h => { h with pd0 := and_mask_reserved _ _ }) rfl
  | pd1 => exact hquiet (.of_frame rfl) (fun h => { h with pd1 := and_mask_reserved _ _ }) rfl
  | tlbindex | pid | sasid0 | sasid1 | mpuEn | mpuEcr | rdb | rdp | ecr | efa | eret | erstatus | erbta | ivb | userSp
  | statusP0 | icause | irqPending | status => exact hquiet (.of_frame rfl) (fun h => { h with }) rfl
  | tlbcommand =>
    change Ends _ s (s.writeTlbCommand w)
    unfold State.writeTlbCommand
    split
    · next c hc =>
      refine tlbCommand_ends fun _ hwf => ?_
      simp [WellFormed, Config.isPlainWrite, hr, hc] at hwf
    · exact ends_refuse _ _ _
  | irqSelect =>
    change Ends _ s (s.writeSelect w pc)
    unfold State.writeSelect
    dsimp only
    split
    · exact hquiet (.of_frame rfl) (fun h => { h with }) rfl
    · exact ends_raise _ _ _ _ _ _ _ _
  | irqPriority =>
    exact hquiet (.of_frame rfl) (fun h => h.setSource fun _ => clampPrio_lt h.cfg w) rfl
  | irqEnable | irqTrigger => exact hquiet (.of_frame rfl) (fun h => h.setSource fun hn => h.prio _ hn) rfl
  | irqPulseCancel =>
    change Ends _ s (if w.getLsbD 0 then _ else s)
    split
    · exact hquiet (.of_frame rfl) (fun h => h.setSource fun hn => h.prio _ hn) rfl
    · exact hquiet (.of_frame rfl) (fun h => h) rfl
  | irqHint =>
    change Ends _ s (s.writeHint w)
    unfold State.writeHint
    dsimp only
    split
    · next hv => exact hquiet (.of_frame rfl) (fun h => { h with hint := .inr hv }) rfl
    · exact hquiet (.of_frame rfl) (fun h => { h with hint := .inl rfl }) rfl
  | irqAct => exact hquiet (.of_frame rfl) (fun h => { h with act := and_mask_reserved _ _ }) rfl
  | irqCtrl =>
    change Ends _ s (s.writeIrqCtrl w pc)
    unfold State.writeIrqCtrl
    split
    · exact ends_raise _ _ _ _ _ _ _ _
    · next hnr => exact hquiet (.of_frame rfl) (fun h => { h with nr := Nat.le_of_not_lt hnr }) rfl

theorem auxWriteKernel_ends (s : State) (id w pc : Word) :
    Ends (.auxWrite id w pc) s (s.auxWriteKernel id w pc) := by
  unfold State.auxWriteKernel
  split
  · exact ends_refuse _ _ _
  · next r hr =>
    split
    · exact ends_raise _ _ _ _ _ _ _ _
    · exact auxStore_ends hr

end Sys2Proof.Machine
end

section
/-! SUPPORT. The ends of a poll (43_interrupts R249 to R259), of a RETURN (60_exceptions R296, 43_interrupts R260 to R262),
of RESET (70 R320) and of LINE (43_interrupts R231), and with them those of every request. -/

namespace Sys2Proof.Machine

/-! ### Polls -/

/-- A list of pushes keeps memory in its canonical form, whoever else writes. -/
theorem foldl_push_wf {α : Type} (g : State → α → Word) (l : List α) {s : State} (h : s.mem.wf = true) :
    (l.foldl (fun s b => s.push (g s b)) s).mem.wf = true :=
  List.foldlRecOn (motive := fun t : State => t.mem.wf = true) l _ h fun _ ht _ _ => State.push_wf ht

theorem State.pushIf_wf {s : State} (h : s.mem.wf = true) (b : Bool) (ws : List Word) :
    (s.pushIf b ws).mem.wf = true := by
  unfold State.pushIf
  split
  · exact foldl_push_wf (fun _ w => w) ws h
  · exact h

theorem State.pushFrame_wf {s : State} (h : s.mem.wf = true) (status pc : Word) :
    (s.pushFrame status pc).mem.wf = true :=
  foldl_push_wf (fun s k => s.readReg (Fin.ofNat 32 k)) _
    (State.pushIf_wf (State.pushIf_wf (State.pushIf_wf (State.push_wf (State.push_wf h)) _ _) _ _) _ _)

/-- What either path of an interrupt entry does once the entry's marks are made (43_interrupts R253, R254, R257). -/
structure Entered (s t : State) : Prop where
  cfg : t.cfg = s.cfg
  inbox : t.inbox = s.inbox
  refused : t.refused = s.refused
  refusal : t.out.refusal = s.out.refusal
  fault : t.out.fault = s.out.fault
  ecr : t.exc.ecr = s.exc.ecr
  tlb : t.tlb = s.tlb
  mpu : t.mpu = s.mpu
  irq : t.irq = s.irq
  status : ∃ rb, t.status = { entryUpdate s.status with rb := rb } ∧ (s.cfg.numBanks ≠ 2 → rb = s.status.rb)
  mem : s.mem.wf = true → t.mem.wf = true

theorem entered_fastEntry (s : State) (n : Nat) (pc : Word) : Entered s (s.fastEntry n pc) := by
  unfold State.fastEntry
  dsimp only
  rw [State.jumpVector_eq]
  refine ⟨?_, ?_, ?_, ?_, ?_, ?_, ?_, ?_, ?_, ?status, ?mem⟩
  case status =>
    simp only [State.switchSpIf_status]
    exact ⟨_, rfl, fun hbanks => by simp [hbanks, entryUpdate]⟩
  case mem => exact fun h => State.agentsMove_wf (by simpa using h)
  all_goals simp

theorem entered_regularEntry (s : State) (n : Nat) (pc : Word) : Entered s (s.regularEntry n pc) := by
  unfold State.regularEntry
  dsimp only
  rw [State.jumpVector_eq]
  refine ⟨?_, ?_, ?_, ?_, ?_, ?_, ?_, ?_, ?_, ?status, ?mem⟩
  case status =>
    simp only [State.switchSpIf_status, State.pushFrame_status]
    exact ⟨_, rfl, fun _ => rfl⟩
  case mem => exact fun h => State.agentsMove_wf (by simpa using State.pushFrame_wf (by simpa using h) _ _)
  all_goals simp

/-- The marks of an entry keep a state sound: the level is below `NUM_PRIO`, and no priority changes (43_interrupts
R251). -/
theorem State.Inv.markEntry {s : State} (h : s.Inv) (n : Nat) {p : Nat} (hp : p < s.cfg.numPrio) :
    (s.markEntry n p).Inv := by
  obtain ⟨-, -, -, -, h16, -⟩ := (Config.wf_iff s.cfg).1 h.cfg
  have hact : (s.markEntry n p).irq.act &&& ~~~actMask s.cfg = 0 := by
    rw [State.markEntry_act]
    exact setAct_reserved h16 h.act hp
  have hprio : ∀ m < s.cfg.numIrq, ((s.markEntry n p).source m).prio.toNat < s.cfg.numPrio := fun m hm => by
    rw [State.source_markEntry]
    split <;> exact h.prio m hm
  have hhint : (s.markEntry n p).irq.hint = 0 ∨ 16 + s.cfg.numHwIrq ≤ (s.markEntry n p).irq.hint.toNat ∧
      (s.markEntry n p).irq.hint.toNat < 16 + s.cfg.numIrq := by
    rw [State.markEntry_hint]
    split
    · exact h.hint
    · exact .inl rfl
  have hnr : (s.markEntry n p).irq.ctrl.nr.toNat ≤ maxIrqPairs := by
    rw [State.markEntry_ctrl]
    exact h.nr
  rw [State.markEntry_eq]
  exact { h with act := hact, prio := hprio, hint := hhint, nr := hnr }

/-- Either path of an entry keeps a state sound. -/
theorem Entered.sound {s t : State} (h : Entered s t) (hs : s.Inv) : t.Inv := by
  obtain ⟨rb, hst, hbank⟩ := h.status
  exact
    { cfg := h.cfg ▸ hs.cfg, mem := h.mem hs.mem
      pd0 := by rw [h.cfg, h.tlb]; exact hs.pd0
      pd1 := by rw [h.cfg, h.tlb]; exact hs.pd1
      pages := by unfold State.entry; rw [h.cfg, h.tlb]; exact hs.pages
      prio := by unfold State.source; rw [h.cfg, h.irq]; exact hs.prio
      act := by rw [h.cfg, h.irq]; exact hs.act
      nr := by rw [h.irq]; exact hs.nr
      hint := by rw [h.cfg, h.irq]; exact hs.hint
      bank := by rw [h.cfg, hst]; exact fun hb => (hbank hb).trans (hs.bank hb)
      ecr := by rw [h.ecr]; exact hs.ecr
      mpuEcr := by rw [h.mpu]; exact hs.mpuEcr }

/-- An entry completes the poll that takes it (43_interrupts R249). -/
theorem Entered.completes {s t : State} {n p : Nat} (h : Entered (s.markEntry n p) t)
    (hp : s.Inv → p < s.cfg.numPrio) (pc : Word) : Completes (.irqPoll pc) s t := by
  have hsound (hs : s.Inv) : t.Inv := h.sound (hs.markEntry n (hp hs))
  have hmarks := s.markEntry_eq n p
  obtain ⟨rb, hst, -⟩ := h.status
  have hstatus : t.status = { entryUpdate s.status with rb := rb } := by rw [hst, hmarks]
  have hlines := s.markEntry_lines n p
  have hreq := s.markEntry_irqReq n p
  exact
    { cfg := h.cfg.trans (by rw [hmarks]), inbox := h.inbox.trans (by rw [hmarks])
      refused := h.refused.trans (by rw [hmarks]), refusal := h.refusal.trans (by rw [hmarks])
      fault := h.fault.trans (by rw [hmarks]), ecr := h.ecr.trans (by rw [hmarks])
      inputs := fun _ => by rw [h.irq]; exact ⟨hlines, hreq⟩
      mem := fun hpoll => absurd rfl (hpoll pc)
      victims := fun _ _ _ => by rw [h.tlb, hmarks]
      mode := fun _ _ _ => by rw [hstatus]; rfl
      flags := fun _ _ _ => by rw [hstatus]; exact ⟨rfl, rfl, rfl, rfl⟩
      sound := hsound }

/-- The level of a source that the encoder selects is below `NUM_PRIO` in a sound state (10_state R41). -/
theorem State.Inv.selected_prio_lt {s : State} (h : s.Inv) {n : Nat} (hn : s.select = some n) :
    (s.source n).prio.toNat < s.cfg.numPrio := by
  obtain ⟨hlt, -⟩ := State.mostUrgent_of_select hn
  exact h.prio n hlt

theorem poll_ends (s : State) (pc : Word) : Ends (.irqPoll pc) s (s.poll pc) := by
  obtain h | ⟨n, -, hn, -, ⟨-, h⟩ | ⟨-, -, h⟩ | ⟨-, -, h⟩⟩ := s.poll_cases pc <;> rw [h]
  · have hquiet : Quiet s s := .of_frame rfl
    exact .inr (.inr (hquiet.completes (fun h => h) fun _ _ _ => rfl))
  · exact .inr (.inr ((entered_fastEntry _ n pc).completes (fun h => h.selected_prio_lt hn) pc))
  · exact ends_refuse _ _ _
  · exact .inr (.inr ((entered_regularEntry _ n pc).completes (fun h => h.selected_prio_lt hn) pc))

/-! ### Returns -/

theorem State.popRegs_wf {s : State} (h : s.mem.wf = true) (n : Nat) : (s.popRegs n).mem.wf = true :=
  List.foldlRecOn (motive := fun t : State => t.mem.wf = true) _ _ h fun _ ht _ _ => State.popReg_wf ht

theorem State.popLoop_wf {s : State} (h : s.mem.wf = true) : s.popLoop.mem.wf = true := by
  unfold State.popLoop
  exact State.popped_wf (State.popped_wf (State.popped_wf h))

theorem State.popBases_wf {s : State} (h : s.mem.wf = true) : s.popBases.mem.wf = true := by
  unfold State.popBases
  exact State.popped_wf (State.popped_wf (State.popped_wf h))

theorem State.ite_wf {c : Prop} [Decidable c] {s t : State} (hs : s.mem.wf = true) (ht : t.mem.wf = true) :
    (if c then s else t).mem.wf = true := by
  split
  · exact hs
  · exact ht

theorem State.popFrame_wf {s : State} (h : s.mem.wf = true) : s.popFrame.mem.wf = true := by
  have hregs := State.popRegs_wf h s.savedRegs
  unfold State.popFrame
  dsimp only
  refine State.ite_wf (State.popBases_wf ?_) ?_ <;> refine State.ite_wf (State.popLoop_wf ?_) ?_ <;>
    exact State.ite_wf (State.popReg_wf hregs) hregs

/-- What a return does, from an exception or from an interrupt on either path (60_exceptions R297, 43_interrupts R261,
R262). -/
structure Returned (s t : State) : Prop where
  cfg : t.cfg = s.cfg
  inbox : t.inbox = s.inbox
  refused : t.refused = s.refused
  refusal : t.out.refusal = s.out.refusal
  fault : t.out.fault = s.out.fault
  exc : t.exc = s.exc
  tlb : t.tlb = s.tlb
  mpu : t.mpu = s.mpu
  irq : t.irq = { s.irq with act := t.irq.act, actU := t.irq.actU }
  act : t.irq.act = s.irq.act ∨ ∃ p, t.irq.act = clearAct s.irq.act p
  status : ∃ w, t.status = unpackStatus s.cfg w
  mem : s.mem.wf = true → t.mem.wf = true
  undisturbed : s.undisturbed → t.mem = s.mem ∧ t.undisturbed

theorem returned_exceptionReturn (s : State) : Returned s s.exceptionReturn := by
  rw [State.exceptionReturn_eq]
  exact ⟨rfl, rfl, rfl, rfl, rfl, rfl, rfl, rfl, rfl, .inl rfl, ⟨_, rfl⟩, fun h => h, fun h => ⟨rfl, h⟩⟩

theorem returned_fastReturn (s : State) : Returned s s.fastReturn := by
  unfold State.fastReturn State.clearLevel State.jump
  dsimp only
  rw [State.switchSpIf_eq]
  exact ⟨rfl, rfl, rfl, rfl, rfl, rfl, rfl, rfl, rfl, .inr ⟨0, rfl⟩, ⟨_, rfl⟩, fun h => h, fun h => ⟨rfl, h⟩⟩

/-- A regular return leaves memory as its pops do (43_interrupts R262). -/
theorem State.regularReturn_mem (s : State) (p : Nat) :
    (s.regularReturn p).mem = (s.switchSpIf s.userFrame).unframed.mem ∧
      (s.regularReturn p).otherAgents = (s.switchSpIf s.userFrame).unframed.otherAgents := by
  simp [State.regularReturn, State.unframed]

theorem State.unframed_wf {s : State} (h : s.mem.wf = true) : s.unframed.mem.wf = true :=
  State.popped_wf (State.popped_wf (State.popFrame_wf h))

theorem returned_regularReturn (s : State) (p : Nat) : Returned s (s.regularReturn p) := by
  obtain ⟨hmem, hothers⟩ := s.regularReturn_mem p
  refine ⟨?_, ?_, ?_, ?_, ?_, ?_, ?_, ?_, ?_, ?act, ?status, fun h => ?mem, fun h => ?undisturbed⟩
  case act => exact .inr ⟨p, by simp [State.regularReturn, State.clearLevel]⟩
  case status => exact ⟨_, by simp [State.regularReturn]; rfl⟩
  case mem =>
    rw [hmem]
    exact State.unframed_wf (by simpa using h)
  case undisturbed =>
    have hquiet : (s.switchSpIf s.userFrame).undisturbed := by simpa [State.undisturbed] using h
    unfold State.undisturbed
    rw [hmem, hothers, State.unframed_frame hquiet]
    exact ⟨by simp, hquiet⟩
  all_goals simp [State.regularReturn, State.clearLevel]

/-- A return keeps a state sound (10_state R22, 30_encoding R124). -/
theorem Returned.sound {s t : State} (h : Returned s t) (hs : s.Inv) : t.Inv := by
  obtain ⟨w, hst⟩ := h.status
  have hact : t.irq.act &&& ~~~actMask s.cfg = 0 := by
    obtain heq | ⟨p, heq⟩ := h.act <;> rw [heq]
    · exact hs.act
    · exact clearAct_reserved hs.act p
  exact
    { cfg := h.cfg ▸ hs.cfg, mem := h.mem hs.mem
      pd0 := by rw [h.cfg, h.tlb]; exact hs.pd0
      pd1 := by rw [h.cfg, h.tlb]; exact hs.pd1
      pages := by unfold State.entry; rw [h.cfg, h.tlb]; exact hs.pages
      prio := by unfold State.source; rw [h.cfg, h.irq]; exact hs.prio
      act := by rw [h.cfg]; exact hact
      nr := by rw [h.irq]; exact hs.nr
      hint := by rw [h.cfg, h.irq]; exact hs.hint
      bank := by rw [h.cfg, hst]; exact fun hb => unpackStatus_rb hb w
      ecr := by rw [h.exc]; exact hs.ecr
      mpuEcr := by rw [h.mpu]; exact hs.mpuEcr }

/-- A return completes the request. -/
theorem Returned.completes {s t : State} (h : Returned s t) : Completes .ret s t :=
  { h with
    ecr := congrArg _ h.exc
    inputs := fun _ => by rw [h.irq]; exact ⟨rfl, rfl⟩
    mem := fun _ => h.undisturbed
    victims := fun _ _ _ => congrArg _ h.tlb
    mode := fun hret => absurd rfl hret
    flags := fun hret => absurd rfl hret
    sound := h.sound }

theorem return_ends (s : State) : Ends .ret s s.return := by
  unfold State.return
  split
  · exact .inr (.inr (returned_exceptionReturn s).completes)
  · split
    · next p _ =>
      unfold State.interruptReturn
      split
      · exact .inr (.inr (returned_fastReturn s).completes)
      · exact .inr (.inr (returned_regularReturn s p).completes)
    · exact ends_refuse _ _ _

/-! ### RESET -/

/-- RESET, whole (70 R320, R322). -/
theorem State.doReset_eq (s : State) :
    s.doReset =
      { s with
        cpu := s.resetCpu
        status := unpackStatus s.cfg 0
        exc := s.resetExc
        tlb := s.resetTlb
        mpu := s.resetMpu
        irq := s.resetIrq
        resets := s.resets + 1
        mem := s.agentsMove.mem
        otherAgents := s.agentsMove.otherAgents
        out := { s.out with
          flushOut := s.out.flushOut ++ [.all]
          nextPc := some (s.agentsMove.word s.cfg.ivbReset) } } := by
  have hentry : s.cfg.ivbReset + ((0 : Byte).setWidth 32 <<< 2) = s.cfg.ivbReset := by simp
  unfold State.doReset
  dsimp only
  rw [State.jumpVector_eq]
  refine State.eq_of_fields rfl rfl rfl rfl rfl rfl rfl ?mem ?others rfl ?out rfl rfl
  case mem => refine (State.agentsMove_congr (s := s) ?_ ?_).1 <;> rfl
  case others => refine (State.agentsMove_congr (s := s) ?_ ?_).2 <;> rfl
  case out =>
    rw [← hentry]
    refine congrArg (fun w => ({ s.out with flushOut := s.out.flushOut ++ [.all], nextPc := some w } : Outputs)) ?_
    refine State.agentsMove_word_congr (s := s) ?_ ?_ ?_ _ <;> rfl

/-- Source `n` after RESET (70 R320). -/
theorem State.source_doReset (s : State) {n : Nat} (h : n < s.cfg.numIrq) (h240 : n < 240) :
    s.doReset.source n = IrqSource.reset s.cfg n := by
  rw [State.doReset_eq]
  exact (getD_tabulate _ _ h240).trans (if_pos h)

/-- Slot `way` of set `st` after RESET: an invalid entry made of two draws (70 R320). -/
theorem State.entry_doReset (s : State) (st : BitVec 8) (way : BitVec 2) :
    ∃ a b, s.doReset.entry st way = { toEntry s.cfg a b with v := false } := by
  rw [State.doReset_eq]
  exact ⟨_, _, get_tabulate _ _⟩

/-- The priority of a source at reset is the least urgent one (10_state R41). -/
theorem toNat_prio_reset {cfg : Config} (hcfg : cfg.wf = true) (n : Nat) :
    (IrqSource.reset cfg n).prio.toNat = cfg.numPrio - 1 := by
  obtain ⟨-, -, -, hone, h16, -⟩ := (Config.wf_iff cfg).1 hcfg
  exact Nat.mod_eq_of_lt (show cfg.numPrio - 1 < 2 ^ 4 by omega)

/-- RESET leads to a sound state, whatever the draws (70 R320). -/
theorem State.Inv.doReset {s : State} (h : s.Inv) : s.doReset.Inv := by
  have hpages : ∀ st way, (s.doReset.entry st way).Fits s.cfg := fun st way => by
    obtain ⟨a, b, he⟩ := s.entry_doReset st way
    rw [he]
    exact toEntry_fits h.cfg a b
  have hprio : ∀ n < s.cfg.numIrq, (s.doReset.source n).prio.toNat < s.cfg.numPrio := fun n hn => by
    obtain ⟨-, -, -, hone, -⟩ := (Config.wf_iff s.cfg).1 h.cfg
    have := Config.numIrq_le h.cfg
    rw [s.source_doReset hn (by omega), toNat_prio_reset h.cfg]
    omega
  have hecr : (s.drawn .mpuEcr &&& lowMask 24).toNat < 2 ^ 24 := by
    rw [BitVec.toNat_and]
    exact Nat.lt_of_le_of_lt Nat.and_le_right (by decide)
  rw [State.doReset_eq] at hpages hprio ⊢
  exact
    { cfg := h.cfg, mem := State.agentsMove_wf h.mem, pd0 := and_mask_reserved _ _, pd1 := and_mask_reserved _ _
      pages := hpages, prio := hprio, act := BitVec.zero_and, nr := Nat.zero_le _, hint := .inl rfl
      bank := fun hb => unpackStatus_rb hb 0, ecr := h.ecr, mpuEcr := hecr }

theorem reset_ends (s : State) : Ends .reset s s.doReset := by
  have hsound : s.Inv → s.doReset.Inv := State.Inv.doReset
  rw [State.doReset_eq] at hsound ⊢
  exact .inr (.inr
    { cfg := rfl, inbox := rfl, refused := rfl, refusal := rfl, fault := rfl, ecr := rfl
      inputs := fun _ => ⟨rfl, rfl⟩
      mem := fun _ h => by rw [State.agentsMove_undisturbed h]; exact ⟨rfl, h⟩
      victims := fun _ _ h => absurd rfl h
      mode := fun _ _ _ => rfl
      flags := fun _ _ h => absurd rfl h
      sound := hsound })

/-! ### LINE -/

/-- An environment step that drives an input completes: it changes the interrupt controller alone. -/
theorem completes_line {s t : State} {src : Byte} {level : Bool} (h : t = { s with irq := t.irq })
    (hsound : s.Inv → t.Inv) : Completes (.line src level) s t := by
  rw [h] at hsound ⊢
  exact
    { cfg := rfl, inbox := rfl, refused := rfl, refusal := rfl, fault := rfl, ecr := rfl
      inputs := fun hline => absurd rfl (hline src level), mem := fun _ h => ⟨rfl, h⟩, victims := fun _ _ _ => rfl
      mode := fun _ _ h => h, flags := fun _ _ _ => ⟨rfl, rfl, rfl, rfl⟩, sound := hsound }

theorem drive_ends (s : State) (src : Byte) (level : Bool) : Ends (.line src level) s (s.drive src level) := by
  by_cases hreq : src = 0xFF
  · refine .inr (.inr (completes_line ?_ fun h => ?_))
    all_goals rw [State.drive, if_pos hreq]
    exact { h with }
  · by_cases hhw : src.toNat < s.cfg.numHwIrq
    · have hframe := State.drive_frame hreq hhw level
      refine .inr (.inr (completes_line (by rw [hframe]) fun h => ?_))
      have hlatched : (s.setSource src.toNat { s.source src.toNat with plat := true }).Inv :=
        h.setSource fun hn => h.prio _ hn
      rw [State.drive_hardware hreq hhw]
      split
      · exact { hlatched with }
      · exact { h with }
    · rw [State.drive_notHardware hreq (Nat.not_lt.mp hhw)]
      exact ends_refuse _ _ _

/-! ### Every request -/

/-- Every request refuses, raises or completes, from the state with the outputs cleared (30_encoding R93). -/
theorem exec_ends {i : Instr} {s t : State} (h : exec i s = .next t) : Ends i s.clearOut t := by
  obtain rfl := exec_eq_next.1 h
  have hcommand (c : TlbCmd) (pc : Word) :
      Ends (tlbcmdInstr c pc) s.clearOut (s.clearOut.kernelOnly pc fun s => s.tlbCommand c) :=
    kernelOnly_ends (tlbCommand_ends fun hc _ => ⟨pc, by rw [hc]; rfl⟩)
  cases i with
  | translateFetch vaddr pc => exact translate_ends _ _ .fetch vaddr pc
  | translateRead vaddr pc => exact translate_ends _ _ .read vaddr pc
  | translateWrite vaddr pc => exact translate_ends _ _ .write vaddr pc
  | auxRead id pc => exact kernelOnly_ends (act := fun s => s.auxReadKernel id pc) (auxReadKernel_ends _ _ id pc)
  | auxWrite id w pc => exact kernelOnly_ends (act := fun s => s.auxWriteKernel id w pc) (auxWriteKernel_ends _ id w pc)
  | irqPoll pc => exact poll_ends _ pc
  | ret => exact return_ends _
  | raise vector cause param faddr pc retPc => exact ends_raise _ _ _ _ _ _ _ _
  | reset => exact reset_ends _
  | tlbFlushExt =>
    have hquiet : Quiet s.clearOut (effect .tlbFlushExt s.clearOut) := .of_frame rfl
    refine .inr (.inr (hquiet.completes (fun h => h.of_entries rfl fun st way => ?_) fun _ _ _ => rfl))
    change ((invalidateAll s.tlb.entries).get _).Fits s.cfg
    rw [get_invalidateAll]
    exact h.pages st way
  | statusRead => exact ends_answer _ _ _
  | statusWrite w =>
    exact .inr (.inr
      { cfg := rfl, inbox := rfl, refused := rfl, refusal := rfl, fault := rfl, ecr := rfl
        inputs := fun _ => ⟨rfl, rfl⟩, mem := fun _ h => ⟨rfl, h⟩, victims := fun _ _ _ => rfl
        mode := fun _ hwrite => absurd rfl (hwrite w), flags := fun _ hwrite => absurd rfl (hwrite w)
        sound := fun h => { h with bank := fun hb => unpackStatus_rb hb w } })
  | line src level => exact drive_ends _ src level
  | tlbcmdWrite pc => exact hcommand .write pc
  | tlbcmdRead pc => exact hcommand .read pc
  | tlbcmdWriteNi pc => exact hcommand .writeNi pc
  | tlbcmdInsert pc => exact hcommand .insert pc
  | tlbcmdDelete pc => exact hcommand .delete pc

/-! ### What holds of every request -/

/-- A request keeps a state sound. -/
theorem exec_sound {i : Instr} {s t : State} (hs : s.Inv) (h : exec i s = .next t) : t.Inv := by
  have hclear : s.clearOut.Inv := { hs with }
  obtain ⟨reason, rfl⟩ | hraised | hcompletes := exec_ends h
  · exact hclear.refuse reason
  · exact hraised.sound hclear
  · exact hcompletes.sound hclear

/-- Settles O12: a step is idle, refuses the header in front, or performs a request, which keeps the state sound however
it ends. -/
theorem everyStepKeepsTheStateSound : Obligations.EveryStepKeepsTheStateSound := by
  intro s t hs hstep
  obtain ⟨-, rfl⟩ | ⟨r, rest, -, ⟨i, -, hexec⟩ | ⟨reason, -, rfl⟩⟩ := step_cases hstep
  · exact hs
  · exact exec_sound (s := { s with inbox := rest }) { hs with } hexec
  · exact State.Inv.refuse (s := { s with inbox := rest }) { hs with } reason

/-- Settles O8: a raise and a completion leave the mark and name no reason; a refusal sets both. -/
theorem refusalSetsOnlyTheMarkAndNothingClearsIt : Obligations.RefusalSetsOnlyTheMarkAndNothingClearsIt := by
  intro i s t h
  have hkept (hmark : t.refused = s.refused) (hnone : t.out.refusal = none) :
      t.refused = (s.refused || t.out.refusal.isSome) ∧ (t.out.refusal ≠ none →
        t = { s with refused := true, out := { Outputs.none with refusal := t.out.refusal } }) := by
    rw [hmark, hnone]
    exact ⟨(Bool.or_false _).symm, fun hsome => absurd rfl hsome⟩
  obtain ⟨reason, rfl⟩ | hraised | hcompletes := exec_ends h
  · exact ⟨(Bool.or_true _).symm, fun _ => rfl⟩
  · exact hkept hraised.refused hraised.refusal
  · exact hkept hcompletes.refused hcompletes.refusal

/-- Settles O9: neither a refusal nor a raise touches the interrupt controller, and of the completions only LINE's changes
an input. -/
theorem requestsKeepParametersAndInputs : Obligations.RequestsKeepParametersAndInputs := by
  intro i s t h
  obtain ⟨reason, rfl⟩ | hraised | hcompletes := exec_ends h
  · exact ⟨rfl, rfl, fun _ => ⟨rfl, rfl⟩⟩
  · exact ⟨hraised.cfg, hraised.inbox, fun _ => by rw [hraised.irq]; exact ⟨rfl, rfl⟩⟩
  · exact ⟨hcompletes.cfg, hcompletes.inbox, hcompletes.inputs⟩

/-- Settles O10: a raise only reads memory after the other agents' move, which is none here, and of the completions only
a poll's writes it. -/
theorem onlyInterruptEntryWritesMemory : Obligations.OnlyInterruptEntryWritesMemory := by
  intro i s t hquiet hpoll h
  obtain ⟨reason, rfl⟩ | hraised | hcompletes := exec_ends h
  · exact ⟨rfl, hquiet⟩
  · have hstill := State.agentsMove_undisturbed (s := s.clearOut) hquiet
    have hmem := hraised.mem
    have hothers := hraised.otherAgents
    rw [hstill] at hmem hothers
    exact ⟨hmem, hothers.trans hquiet⟩
  · exact hcompletes.mem hpoll hquiet

/-- Settles O30: a raise moves no victim pointer, and of the completions only those of INSERT and RESET do. -/
theorem onlyInsertAndResetMoveVictims : Obligations.OnlyInsertAndResetMoveVictims := by
  intro i s t hwf hinsert hreset h
  obtain ⟨reason, rfl⟩ | hraised | hcompletes := exec_ends h
  · rfl
  · exact hraised.victims
  · exact hcompletes.victims hwf hinsert hreset

/-- Settles O44: of the three ends only a raise describes a fault, and it enters kernel mode. -/
theorem everyFaultEntersKernelMode : Obligations.EveryFaultEntersKernelMode := by
  intro i s t f h hf
  obtain ⟨reason, rfl⟩ | hraised | hcompletes := exec_ends h
  · exact absurd hf nofun
  · obtain ⟨hu, hie, hae, hh⟩ := hraised.kernel
    obtain ⟨f', hf', hecr⟩ := hraised.fault
    obtain rfl : f' = f := Option.some.inj (hf'.symm.trans hf)
    exact ⟨hu, hie, hae, hh, hecr, hraised.target⟩
  · exact absurd (hcompletes.fault.symm.trans hf) nofun

/-- Settles O45: a raise describes its fault, so a request without one refuses or completes, and neither writes `ECR`. -/
theorem onlyExceptionsWriteEcr : Obligations.OnlyExceptionsWriteEcr := by
  intro i s t h hnone
  obtain ⟨reason, rfl⟩ | hraised | hcompletes := exec_ends h
  · rfl
  · obtain ⟨f, hf, -⟩ := hraised.fault
    exact absurd (hf.symm.trans hnone) nofun
  · exact hcompletes.ecr

/-- Settles O46: a refusal keeps the status word, a raise enters kernel mode and keeps the flags, and the completions that
do otherwise are the ones excepted. -/
theorem onlyReturnAndStatusWriteEnterUserMode : Obligations.OnlyReturnAndStatusWriteEnterUserMode := by
  intro i s t h hret hwrite
  obtain ⟨reason, rfl⟩ | hraised | hcompletes := exec_ends h
  · exact ⟨fun hu => hu, fun _ => ⟨rfl, rfl, rfl, rfl⟩⟩
  · obtain ⟨hu, -⟩ := hraised.kernel
    exact ⟨fun _ => hu, fun _ => hraised.flags⟩
  · exact ⟨hcompletes.mode hret hwrite, hcompletes.flags hret hwrite⟩

end Sys2Proof.Machine
end

section
/-! SUPPORT. Reset: the state after it (70 R320, R321) and what the request sets, whatever the draws (R320 to R323). -/

namespace Sys2Proof.Machine

/-- Source `n` of the reset state (10_state R41). -/
theorem source_reset {n : Nat} (h : n < Config.vectors.numIrq) :
    State.reset.source n = IrqSource.reset Config.vectors n := by
  have h240 : n < 240 := Nat.lt_of_lt_of_le h (by decide)
  have hslot := getD_tabulate
    (fun s => if s < Config.vectors.numIrq then IrqSource.reset Config.vectors s else IrqSource.absent)
    IrqSource.absent h240
  exact hslot.trans (if_pos h)

/-- Settles O11: the parameters of the vectors are legal, every slot is the entry or the source of reset, and the other
bounded registers hold 0. -/
theorem resetStateIsSound : Obligations.ResetStateIsSound := by
  have hcfg : Config.vectors.wf = true := by decide +kernel
  have hentry (st : BitVec 8) (way : BitVec 2) : State.reset.entry st way = TlbEntry.reset := by
    simp [State.entry, State.reset, Tlb.reset, Vector.get_eq_getElem]
  exact
    { cfg := hcfg, mem := rfl, pd0 := BitVec.zero_and, pd1 := BitVec.zero_and
      pages := fun st way => by rw [hentry]; exact ⟨Nat.two_pow_pos _, Nat.two_pow_pos _⟩
      prio := fun n hn => by rw [source_reset hn, toNat_prio_reset hcfg]; decide
      act := BitVec.zero_and, nr := by decide, hint := .inl rfl, bank := fun _ => rfl, ecr := by decide
      mpuEcr := by decide }

/-- The status word 0 unpacks to every flag clear (70 R320). -/
theorem unpackStatus_zero (cfg : Config) : unpackStatus cfg 0 = Status.zero := by
  simp [unpackStatus, Status.zero]

/-- Region `i` after RESET is invalid (70 R320). -/
theorem State.region_doReset (s : State) {i : Nat} (h : i < s.cfg.mpuRegions) (h16 : i < 16) :
    (s.doReset.region i).valid = false := by
  have hslot : s.doReset.region i = s.resetRegion i := by
    rw [State.doReset_eq]
    exact getD_tabulate _ _ h16
  rw [hslot]
  unfold State.resetRegion
  dsimp only
  rw [if_pos h]

/-- Settles O57: RESET's one equation, and the elements of the vectors it builds. -/
theorem resetSetsWhatTheSpecNames : Obligations.ResetSetsWhatTheSpecNames := by
  intro s hcfg
  have hsource {n : Nat} (hn : n < s.cfg.numIrq) : s.clearOut.doReset.source n = IrqSource.reset s.cfg n :=
    s.clearOut.source_doReset hn (Nat.lt_of_lt_of_le hn (Config.numIrq_le hcfg).2)
  refine ⟨s.clearOut.doReset, exec_effect .reset s, ?entries, ?victims, ?mmuOff, ?regions, ?frame⟩
  case entries =>
    intro st way
    obtain ⟨a, b, he⟩ := s.clearOut.entry_doReset st way
    rw [he]
  case victims =>
    intro st
    rw [State.doReset_eq]
    simp [State.victim, State.resetTlb, Vector.get_eq_getElem]
  case mmuOff => rw [State.doReset_eq]; rfl
  case regions =>
    exact fun i hi => s.clearOut.region_doReset hi (Nat.lt_of_lt_of_le hi (Config.wf_regions hcfg))
  case frame =>
    have hsources : ∀ n < s.cfg.numIrq, (s.clearOut.doReset.source n).plat = false ∧
        (s.clearOut.doReset.source n).trig = false ∧
        (s.clearOut.doReset.source n).prio.toNat = s.cfg.numPrio - 1 ∧
        (s.clearOut.doReset.source n).en = decide (n < s.cfg.numHwIrq) := fun n hn => by
      rw [hsource hn]
      exact ⟨rfl, rfl, toNat_prio_reset hcfg n, rfl⟩
    rw [State.doReset_eq, State.agentsMove_clearOut] at hsources ⊢
    exact ⟨rfl, rfl, rfl, rfl, hsources, rfl, unpackStatus_zero _, rfl, rfl, rfl, rfl, rfl, rfl, rfl, rfl, rfl, rfl, rfl⟩

end Sys2Proof.Machine
end

section
/-! SUPPORT. The general registers through the bank selector (10_state R21 to R24), and words of memory (20_memory R72 to
R74). -/

namespace Sys2Proof.Machine

/-- The stack-pointer switch undoes itself (10_state R24). -/
theorem State.switchSp_switchSp {s : State} (hcfg : s.cfg.wf = true) : s.switchSp.switchSp = s := by
  have hcpu : s.switchSp.switchSp.cpu = s.cpu := by
    rw [State.switchSp_cpu (by simpa using hcfg), State.switchSp_cpu hcfg]
    simp [Vector.get_eq_getElem, Vector.set_set]
  exact State.eq_of_fields (by simp) hcpu (by simp) (by simp) (by simp) (by simp) (by simp) (by simp) (by simp) (by simp)
    (by simp) (by simp) (by simp)

/-- Settles O58: each clause is a law of the register file or of the switch. -/
theorem bankSelectorAndStackSwitch : Obligations.BankSelectorAndStackSwitch := by
  intro s i v hcfg
  refine ⟨s.readReg_writeReg_self i v, fun j hj rb => s.regInBank_writeReg_other v hj rb, ?otherBank, ?unbanked,
    stackSwitched_of_cpu hcfg (by simp) rfl, State.switchSp_switchSp hcfg⟩
  case otherBank =>
    intro hbanks hset
    exact State.regInBank_writeReg_otherBank (by simp [isBanked, hbanks, hset]) i v
  case unbanked =>
    intro hi
    exact State.regInBank_unbanked (not_banked hcfg (by simpa [regSp, regIlink, regBlink] using hi))

/-- A word's byte addresses, modulo `2^32` (20_memory R72). -/
theorem byteAddr_eq (a : Word) {k : Nat} (hk : k < 4) : byteAddr a k = (a.toNat + k) % 2 ^ 32 := by
  unfold byteAddr
  rw [BitVec.toNat_add, BitVec.toNat_ofNat, Nat.mod_eq_of_lt (show k < 2 ^ 32 by omega)]

/-- Settles O59: each clause is a law of memory, at the byte addresses written out. -/
theorem physicalWordWritesAreExact : Obligations.PhysicalWordWritesAreExact := by
  intro m en a x hm
  refine ⟨Memory.readWord_writeWord_self hm, fun k hk => ?bytes, fun b hb => ?others, Memory.writeWord_wf hm⟩
  case bytes =>
    rw [← byteAddr_eq a hk]
    exact Memory.read_writeWord_byte hm hk
  case others =>
    refine Memory.read_writeWord_other fun ⟨k, hk, h⟩ => hb k hk ?_
    rw [h, byteAddr_eq a hk]

end Sys2Proof.Machine
end

section
/-! SUPPORT. Exceptions there and back (60_exceptions R284, R285, R297), the arms of a translation that no engine answers
(40_router R133, 41_tlb R148), and the levels of nested entries (43_interrupts R246, R247). -/

namespace Sys2Proof.Machine

/-- Settles O41: the double fault's one equation. -/
theorem doubleFaultEscalates : Obligations.DoubleFaultEscalates := by
  intro s vector cause param faddr pc retPc hae
  have hdouble := State.raise_double (s := s.clearOut) hae vector cause param faddr pc retPc
  rw [State.agentsMove_clearOut] at hdouble
  exact (exec_effect _ s).trans (congrArg _ hdouble)

/-- A status word unpacks to the flags it was packed from, where `RB` may be set (30_encoding R106). -/
theorem unpackStatus_packStatus {cfg : Config} {st : Status} (h : cfg.numBanks ≠ 2 → st.rb = false) :
    unpackStatus cfg (packStatus st) = st := by
  have hrb : (decide (cfg.numBanks = 2) && st.rb) = st.rb := by
    by_cases hbanks : cfg.numBanks = 2
    · simp [hbanks]
    · simp [h hbanks]
  unfold unpackStatus packStatus
  simp only [BitVec.getLsbD_or, getLsbD_bitAt, Nat.reduceLT]
  simp [hrb]

/-- Two switches of the stack under the same flag restore both pointers and every register (10_state R24). -/
theorem stackSwitched_back {b : Bool} {s t u : State} (hcfg : s.cfg.wf = true) (ht : StackSwitched b s t)
    (hu : StackSwitched b t u) (hct : t.cfg = s.cfg) (hcu : u.cfg = t.cfg) (hrb : u.status.rb = s.status.rb) :
    (∀ i, u.readReg i = s.readReg i) ∧ u.cpu.userSp = s.cpu.userSp := by
  have hspT := stackSwitched_readReg_sp hcfg hct ht
  have hspU := stackSwitched_readReg_sp (hct.symm ▸ hcfg) hcu hu
  constructor
  · intro i
    by_cases hi : i = regSp
    · subst hi
      rw [hspU, ht.userSp, hspT]
      cases b <;> rfl
    · rw [← State.regInBank_selected u, hu.others i hi, ht.others i hi, hrb, State.regInBank_selected]
  · rw [hu.userSp, hspT, ht.userSp]
    cases b <;> rfl

/-- Settles O43: the entry saved the status word whole, and the second switch of the stack undoes the first. -/
theorem returnUndoesExceptionEntry : Obligations.ReturnUndoesExceptionEntry := by
  intro s t vector cause param faddr pc retPc hs hae hraise
  obtain ⟨t', ht', hentry, hswitch⟩ := raiseEntersTheException s vector cause param faddr pc retPc hs.cfg hae
  obtain rfl : t' = t := Host.Outcome.next.inj (ht'.symm.trans hraise)
  have hcfg : t'.cfg = s.cfg := by rw [hentry]
  have haeT : t'.status.ae = true := by rw [hentry]
  have hexc : t'.exc.erstatus = packStatus s.status ∧ t'.exc.erbta = s.cpu.bta ∧ t'.exc.eret = retPc := by
    rw [hentry]
    exact ⟨rfl, rfl, rfl⟩
  obtain ⟨hsaved, hbta, hret⟩ := hexc
  obtain ⟨u, hu, hreturn, hback⟩ := (returnLeavesTheException t' (hcfg.symm ▸ hs.cfg)).1 haeT
  have hstatus : u.status = s.status := by
    rw [hreturn, hsaved, hcfg]
    exact unpackStatus_packStatus hs.bank
  have hcfgU : u.cfg = t'.cfg := by rw [hreturn]
  have hswitch' : StackSwitched u.status.u s { t' with cpu.bta := t'.exc.erbta } := by
    rw [hstatus]
    exact { hswitch with rest := by rw [hbta, hswitch.rest] }
  obtain ⟨hregs, huserSp⟩ := stackSwitched_back hs.cfg hswitch' hback hcfg hcfgU (congrArg _ hstatus)
  refine ⟨u, hu, hstatus, hregs, huserSp, ?bta, ?target⟩
  case bta => rw [hback.rest, hbta]
  case target => rw [hreturn, hret]

/-- A translation is `translate` of its access kind (40_router R133). -/
theorem exec_translateInstr (kind : AccessKind) (vaddr pc : Word) (s : State) :
    exec (translateInstr kind vaddr pc) s = .next (s.translate kind vaddr pc) := by
  cases kind <;> rfl

/-- Settles O14: the two arms of the router without an engine. -/
theorem directAndFaultArmsOfTranslate : Obligations.DirectAndFaultArmsOfTranslate := by
  intro kind vaddr pc s
  rw [exec_translateInstr, kindNumber_eq_kindCode]
  constructor <;> intro hroute
  all_goals
    have hroute' : s.clearOut.routeOf vaddr = _ := hroute
    unfold State.translate
    dsimp only
    rw [hroute']
    rfl

/-- Settles O18: the one match is a hit, and a hit on a super page is refused before its permissions are looked at. -/
theorem superPageTranslationIsRefused : Obligations.SuperPageTranslationIsRefused := by
  intro kind vaddr pc s way hroute hone hsuper
  have hhit := State.tlbTranslate_hit (s := s.clearOut) hone kind pc
  rw [exec_translateInstr_useMmu hroute, hhit]
  exact congrArg _ (if_pos hsuper)

/-- Settles O53: a poll that takes a source marks its level, which is below the current priority and so below every active
level. -/
theorem nestedEntriesAreMoreUrgent : Obligations.NestedEntriesAreMoreUrgent := by
  intro s t pc hs h
  obtain rfl := exec_eq_next.1 h
  have hclear : s.clearOut.Inv := { hs with }
  have hmarked {n : Nat} {u : State} (hn : s.clearOut.select = some n)
      (hurgent : (s.clearOut.source n).prio.toNat < s.clearOut.currentPrio)
      (hu : Entered (s.clearOut.markEntry n (s.clearOut.source n).prio.toNat) u) :
      ∃ p < s.cfg.numPrio, u.irq.act = s.irq.act ||| (1#16 <<< p) ∧ ∀ q, s.irq.act.getLsbD q = true → p < q := by
    refine ⟨_, hclear.selected_prio_lt hn, ?_, fun q hq => Nat.lt_of_lt_of_le hurgent (State.currentPrio_le hq)⟩
    rw [hu.irq, State.markEntry_act]
    rfl
  obtain hidle | ⟨n, -, hn, hurgent, ⟨-, hentry⟩ | ⟨-, -, hentry⟩ | ⟨-, -, hentry⟩⟩ := s.clearOut.poll_cases pc
  · exact .inl (congrArg (·.irq.act) hidle)
  · exact .inr (hmarked hn hurgent (hentry ▸ entered_fastEntry _ n pc : Entered _ (s.clearOut.poll pc)))
  · exact .inl (congrArg (·.irq.act) hentry)
  · exact .inr (hmarked hn hurgent (hentry ▸ entered_regularEntry _ n pc : Entered _ (s.clearOut.poll pc)))

end Sys2Proof.Machine
end

section
/-! SUPPORT. The addresses of a region as numbers (42_mpu R190), and the promise that `page_granular` makes for a page
(R197, R198). -/

namespace Sys2Proof.Machine

/-- The size class of a region is at most all of memory (30_encoding R117). -/
theorem regionLog_le (r : Region) : regionLog r ≤ 32 := by
  unfold regionLog
  split <;> omega

/-- A word with its low bits cleared is the word rounded down to a multiple of the power of two. -/
theorem toNat_and_not_lowMask (x : Word) {n : Nat} (h : n ≤ 32) :
    (x &&& ~~~lowMask n).toNat = x.toNat / 2 ^ n * 2 ^ n := by
  have hshift : x &&& ~~~lowMask n = (x >>> n) <<< n := by
    refine BitVec.eq_of_getLsbD_eq fun k hk => ?_
    rw [BitVec.getLsbD_and, BitVec.getLsbD_not, getLsbD_lowMask h, BitVec.getLsbD_shiftLeft, BitVec.getLsbD_ushiftRight]
    by_cases hn : k < n
    · simp [hn]
    · rw [Nat.add_sub_of_le (Nat.le_of_not_lt hn)]
      simp [hn, hk]
  rw [hshift, BitVec.toNat_shiftLeft, BitVec.toNat_ushiftRight, Nat.shiftLeft_eq, Nat.shiftRight_eq_div_pow]
  exact Nat.mod_eq_of_lt (Nat.lt_of_le_of_lt (Nat.div_mul_le_self _ _) x.isLt)

/-- `region_mask` rounds down to the region's size (30_encoding R117). -/
theorem toNat_and_regionMask (x : Word) (r : Region) :
    (x &&& regionMask r.size).toNat = x.toNat / 2 ^ regionLog r * 2 ^ regionLog r :=
  toNat_and_not_lowMask x (regionLog_le r)

theorem toNat_baseAddr (r : Region) : (baseAddr r).toNat = r.base.toNat * 32 := by
  have := r.base.isLt
  rw [baseAddr, BitVec.toNat_shiftLeft, Nat.shiftLeft_eq, BitVec.toNat_setWidth]
  omega

theorem toNat_regionLo (r : Region) : (regionLo r).toNat = lowestAddress r := by
  rw [regionLo, toNat_and_regionMask, toNat_baseAddr]
  rfl

/-- The highest address does not wrap around: the lowest is a multiple of the size. -/
theorem toNat_regionHi (r : Region) : (regionHi r).toNat = highestAddress r := by
  have hlow := toNat_regionLo r
  have hmask : (lowMask (sizeBits r.size)).toNat = 2 ^ regionLog r - 1 := toNat_lowMask (regionLog_le r)
  have hpos : 0 < 2 ^ regionLog r := Nat.two_pow_pos _
  have hfit : lowestAddress r + 2 ^ regionLog r ≤ 2 ^ 32 := by
    obtain ⟨c, hc⟩ := Nat.pow_dvd_pow 2 (regionLog_le r)
    have hlt : lowestAddress r < 2 ^ 32 := hlow ▸ (regionLo r).isLt
    unfold lowestAddress at hlt ⊢
    rw [hc, Nat.mul_comm (2 ^ regionLog r)] at hlt ⊢
    rw [← Nat.succ_mul]
    exact Nat.mul_le_mul_right _ (Nat.lt_of_mul_lt_mul_right hlt)
  rw [regionHi, BitVec.toNat_add, hlow, hmask, highestAddress, Nat.mod_eq_of_lt (by omega)]
  omega

/-- A region covers an address exactly when both lie in the same block of the region's size (42_mpu R190). -/
theorem covers_iff {r : Region} {a : Word} :
    covers r a = true ↔ a.toNat / 2 ^ regionLog r = r.base.toNat * 32 / 2 ^ regionLog r := by
  rw [covers, beq_iff_eq, ← BitVec.toNat_inj, toNat_and_regionMask, toNat_and_regionMask, toNat_baseAddr]
  exact Nat.mul_left_inj (Nat.two_pow_pos _).ne'

/-- Settles O20: the numbers of one block are those from its lowest to its highest. -/
theorem regionCoversItsAddressRange : Obligations.RegionCoversItsAddressRange := by
  intro r a
  have hpos : 0 < 2 ^ regionLog r := Nat.two_pow_pos _
  rw [covers_iff, Nat.div_eq_iff hpos, highestAddress, lowestAddress]

/-- The page number of an address, as a number (10_state R34). -/
theorem toNat_vpnOf (cfg : Config) (a : Word) : (vpnOf cfg a).toNat = a.toNat / 2 ^ cfg.pageBits := by
  rw [vpnOf, BitVec.toNat_ushiftRight, Nat.shiftRight_eq_div_pow]

/-- The page of an address lies in the footprint of a region exactly when it lies between the pages of the region's
lowest and highest address (42_mpu R197). -/
theorem State.footprintMeets_iff {s : State} {a : Word} {j : Nat} : s.footprintMeets a j = true ↔
    lowestAddress (s.region j) / 2 ^ s.cfg.pageBits ≤ a.toNat / 2 ^ s.cfg.pageBits ∧
      a.toNat / 2 ^ s.cfg.pageBits ≤ highestAddress (s.region j) / 2 ^ s.cfg.pageBits := by
  simp only [State.footprintMeets, Bool.and_eq_true, decide_eq_true_iff, BitVec.le_def, toNat_vpnOf, toNat_regionLo,
    toNat_regionHi]

/-- A region that covers an address has a footprint that meets the address's page. -/
theorem State.footprintMeets_of_covers {s : State} {a : Word} {j : Nat} (h : covers (s.region j) a = true) :
    s.footprintMeets a j = true := by
  obtain ⟨hlow, hhigh⟩ := (regionCoversItsAddressRange _ a).1 h
  exact State.footprintMeets_iff.2 ⟨Nat.div_le_div_right hlow, Nat.div_le_div_right hhigh⟩

/-- `page_granular`: no valid region of higher priority meets the page, and the answering region is the default one or
at least a page large (42_mpu R197, R198). -/
theorem State.pageGranular_iff {s : State} {a : Word} {r : Nat} (hr : r ≤ s.cfg.mpuRegions) :
    s.pageGranular a r = true ↔ (∀ j < r, (s.region j).valid = true → ¬s.footprintMeets a j = true) ∧
      (r = s.cfg.mpuRegions ∨ s.cfg.pageBits ≤ regionLog (s.region r)) := by
  have hfree : s.overlapFree a r = true ↔ ∀ j < r, (s.region j).valid = true → ¬s.footprintMeets a j = true := by
    simp [State.overlapFree, Nat.min_eq_left hr, or_iff_not_imp_left]
  simp only [State.pageGranular, Bool.and_eq_true, Bool.or_eq_true, decide_eq_true_iff, hfree]
  rfl

/-- Addresses of one page lie in one block of every size that is at least a page. -/
theorem div_eq_div_of_page_eq {a b p n : Nat} (h : a / 2 ^ p = b / 2 ^ p) (hle : p ≤ n) :
    a / 2 ^ n = b / 2 ^ n := by
  rw [← Nat.add_sub_of_le hle, Nat.pow_add, ← Nat.div_div_eq_div_mul, ← Nat.div_div_eq_div_mul, h]

/-- Settles O23: the formula's two conjuncts are what the promise needs, for the regions below the one that answers and
for that one. -/
theorem pageGranularPermissionHoldsForThePage : Obligations.PageGranularPermissionHoldsForThePage := by
  intro s hcfg
  refine ⟨fun a r hr => ?formula, fun a b hpage hgranular => ?promise⟩
  case formula => simp only [State.pageGranular_iff hr, State.footprintMeets_iff]
  case promise =>
    obtain ⟨hanswers, -⟩ := (lowestCoveringRegionAnswers s a _).1 rfl
    have hle : s.findRegion a ≤ s.cfg.mpuRegions := hanswers.elim (fun h => Nat.le_of_lt h.1) Nat.le_of_eq
    obtain ⟨hfree, hlarge⟩ := (State.pageGranular_iff hle).1 hgranular
    have hpage' : b.toNat / 2 ^ s.cfg.pageBits = a.toNat / 2 ^ s.cfg.pageBits := by
      rw [← toNat_vpnOf, ← toNat_vpnOf]
      exact congrArg _ hpage.symm
    refine (lowestCoveringRegionAnswers s b _).2 ⟨?here, fun j hj ⟨hvalid, hcovers⟩ => ?below⟩
    case here =>
      refine hanswers.imp_left fun ⟨hlt, hvalid, hcovers⟩ => ⟨hlt, hvalid, ?_⟩
      have hle := hlarge.resolve_left (Nat.ne_of_lt hlt)
      exact covers_iff.2 ((div_eq_div_of_page_eq hpage' hle).trans (covers_iff.1 hcovers))
    case below =>
      refine hfree j hj hvalid (State.footprintMeets_iff.2 ?_)
      rw [← hpage']
      exact State.footprintMeets_iff.1 (State.footprintMeets_of_covers hcovers)

end Sys2Proof.Machine
end

section
/-! SUPPORT. What INSERT leaves behind: one match (41_tlb R144, R160), and round-robin replacement (R163). -/

namespace Sys2Proof.Machine

/-- The entry of the descriptor words has the page and the ASID of `PD0`, and matches them when it is valid. -/
theorem entryMatches_toEntry {cfg : Config} {pd0 : Word} (h : pd0.getLsbD 9 = true) (m1 m0 pd1 : Word) :
    entryMatches cfg m1 m0 (toEntry cfg pd0 pd1) (pd0 >>> cfg.pageBits) (pd0.setWidth 8) = true :=
  entryMatches_iff.2 ⟨h, rfl, .inr (.inr rfl)⟩

/-- Of the four ways, those equal to one way are that way. -/
theorem filter_ways_eq (dest : BitVec 2) :
    ([0, 1, 2, 3] : List (BitVec 2)).filter (fun way => decide (way = dest)) = [dest] := by
  revert dest
  decide

/-- Settles O28: the written way matches; of the others, a match was invalidated and the rest are as they were. -/
theorem insertLeavesExactlyOneMatch : Obligations.InsertLeavesExactlyOneMatch := by
  intro pc s t hu hv hexec
  obtain ⟨found, hfound⟩ : ∃ found, found = s.matches (s.tlb.pd0 >>> s.cfg.pageBits) (s.tlb.pd0.setWidth 8) := ⟨_, rfl⟩
  obtain ⟨dest, hdest⟩ : ∃ dest, dest = found.headD (s.victim ((s.tlb.pd0 >>> s.cfg.pageBits).setWidth 8)) := ⟨_, rfl⟩
  obtain ⟨t', ht', hframe, -, hinsert⟩ := insertWritesTheMatchOrTheVictim pc s _ found dest hu rfl hfound hdest
  obtain rfl : t' = t := Host.Outcome.next.inj (ht'.symm.trans hexec)
  rw [if_pos hv] at hinsert
  obtain ⟨hentry, -, hindex⟩ := hinsert
  have hnamed : t'.tlb.index.index.extractLsb' 0 2 = dest := by
    rw [hindex]
    exact indexWay_entryIndex _ _
  have hmatch : ∀ way, t'.wayMatches (s.tlb.pd0 >>> s.cfg.pageBits) (s.tlb.pd0.setWidth 8) way =
      decide (way = dest) := fun way => by
    have hway : t'.wayMatches (s.tlb.pd0 >>> s.cfg.pageBits) (s.tlb.pd0.setWidth 8) way =
        entryMatches s.cfg s.tlb.sasid1 s.tlb.sasid0 (t'.entry ((s.tlb.pd0 >>> s.cfg.pageBits).setWidth 8) way)
          (s.tlb.pd0 >>> s.cfg.pageBits) (s.tlb.pd0.setWidth 8) := by
      rw [hframe]
      rfl
    rw [hway, hentry, if_congr (and_iff_right rfl) rfl rfl, if_congr (and_iff_right rfl) rfl rfl]
    by_cases hself : way = dest
    · rw [if_pos hself, entryMatches_toEntry hv, decide_eq_true hself]
    · rw [if_neg hself, decide_eq_false hself]
      split
      case isTrue => exact entryMatches_invalid rfl
      case isFalse hnot => exact Bool.eq_false_iff.2 fun h => hnot (hfound ▸ State.mem_matches.2 h)
  rw [State.matches, funext hmatch, filter_ways_eq, hnamed]

/-- The way pointers count modulo 4 (41_tlb R161). -/
theorem way_add_one_add_ofNat (k : BitVec 2) (n : Nat) : k + 1 + BitVec.ofNat 2 n = k + BitVec.ofNat 2 (n + 1) := by
  rw [BitVec.ofNat_add, BitVec.add_assoc, BitVec.add_comm 1]
  rfl

/-- Settles O29: by induction on the run: with no match an INSERT writes the victim way and advances the pointer. -/
theorem replacementIsStrictRoundRobin : Obligations.ReplacementIsStrictRoundRobin := by
  intro pc st run
  induction run with
  | nil => exact fun _ _ _ => rfl
  | cons words more ih =>
    obtain ⟨pd0, pd1⟩ := words
    intro s hu ⟨hv, hset, hfresh, hmore⟩
    obtain ⟨t, ht, hframe, -, hinsert⟩ :=
      insertWritesTheMatchOrTheVictim pc { s with tlb.pd0 := pd0, tlb.pd1 := pd1 } st [] (s.victim st) hu hset.symm
        hfresh.symm rfl
    rw [if_pos hv] at hinsert
    obtain ⟨-, hvictim, hindex⟩ := hinsert
    have huT : t.status.u = false := by rw [hframe]; exact hu
    have hnext : t.victim st = s.victim st + 1 := (hvictim st).trans (if_pos rfl)
    have hrest := ih t huT (hmore t ht)
    simp only [insertedIndices, ht, hrest, hindex, hnext, way_add_one_add_ofNat, List.length_cons, List.range_succ_eq_map,
      List.map_cons, List.map_map]
    simp

end Sys2Proof.Machine
end

section
/-! SUPPORT. Auxiliary reads and writes in kernel mode (30_encoding R97, R98): which access is malformed, what a read
answers, and what a write stores. -/

namespace Sys2Proof.Machine

/-! ### The arms of an access -/

/-- The obligations' well-formed accesses are those that the model does not find malformed (42_mpu R200, 43_interrupts
R232). -/
theorem malformedAccess_eq_false_iff {s : State} {r : AuxReg} : s.malformedAccess r = false ↔ goodAccess s r := by
  cases r <;>
    simp [State.malformedAccess, goodAccess, regionIndex?, isPerVector, perVectorRegs, State.selectValid, selectsSource]

theorem malformedAccess_eq_true_iff {s : State} {r : AuxReg} : s.malformedAccess r = true ↔ ¬goodAccess s r := by
  rw [← malformedAccess_eq_false_iff, Bool.not_eq_false]

/-- An access that addresses neither a region nor a source is well formed. -/
theorem goodAccess_plain {s : State} {r : AuxReg} (hregion : regionIndex? r = none) (hvector : isPerVector r = false) :
    goodAccess s r := by
  rw [← malformedAccess_eq_false_iff, State.malformedAccess, hregion, hvector]
  rfl

/-- InstructionError is RAISE of its vector (60_exceptions R281). -/
theorem exec_raise_instructionError (s : State) (pc : Word) :
    exec (.raise 2 0 0 pc pc pc) s = .next (s.clearOut.instructionError pc) :=
  exec_effect _ s

theorem exec_auxRead_of_kernel {s : State} (hk : s.status.u = false) (id pc : Word) :
    exec (.auxRead id pc) s = .next (s.clearOut.auxReadKernel id pc) :=
  exec_kernel_of_effect_eq_kernelOnly (act := fun s => s.auxReadKernel id pc) (fun _ => rfl) hk

theorem exec_auxWrite_of_kernel {s : State} (hk : s.status.u = false) (id w pc : Word) :
    exec (.auxWrite id w pc) s = .next (s.clearOut.auxWriteKernel id w pc) :=
  exec_kernel_of_effect_eq_kernelOnly (act := fun s => s.auxWriteKernel id w pc) (fun _ => rfl) hk

/-- Settles O33: the three arms of an auxiliary read. -/
theorem auxReadAnswersTheRegister : Obligations.AuxReadAnswersTheRegister := by
  intro s id pc hk
  rw [exec_auxRead_of_kernel hk]
  unfold State.auxReadKernel
  rw [State.clearOut_cfg]
  refine ⟨fun hid => ?unknown, fun r hid => ⟨fun hbad => ?malformed, fun hgood => ?answered⟩⟩ <;> rw [hid]
  case unknown => rfl
  case malformed =>
    have hbad' : s.clearOut.malformedAccess r = true := malformedAccess_eq_true_iff.2 hbad
    dsimp only
    rw [if_pos hbad', exec_raise_instructionError]
  case answered =>
    have hgood' : s.clearOut.malformedAccess r = false := malformedAccess_eq_false_iff.2 hgood
    dsimp only
    rw [hgood']
    rfl

/-- Settles O35: the arms of an auxiliary write before its store, and the stores that do nothing. -/
theorem auxWriteRefusesFaultsOrIgnores : Obligations.AuxWriteRefusesFaultsOrIgnores := by
  intro s id w pc hk
  refine ⟨fun hid => ?unknown, fun hid hcode => ?command, fun r hid => ⟨fun hbad => ?malformed, fun hgood hr => ?readOnly⟩⟩
  case unknown =>
    rw [exec_auxWrite_of_kernel hk, State.auxWriteKernel, State.clearOut_cfg, hid]
    rfl
  case command =>
    have hnone : tlbCmd? w = none := by
      refine Option.eq_none_iff_forall_ne_some.2 fun c hc => hcode ?_
      rw [tlbCmd?_eq_some.1 hc]
      cases c <;> decide
    have hrefused : s.clearOut.writeTlbCommand w = s.clearOut.refuse .unknownTlbCommand := by
      rw [State.writeTlbCommand, hnone]
    exact (exec_auxWrite_kernel hk hid rfl w pc).trans (congrArg _ hrefused)
  case malformed =>
    have hbad' : s.clearOut.malformedAccess r = true := malformedAccess_eq_true_iff.2 hbad
    rw [exec_auxWrite_of_kernel hk, State.auxWriteKernel, State.clearOut_cfg, hid, exec_raise_instructionError]
    exact congrArg _ (if_pos hbad')
  case readOnly =>
    have hignored : s.clearOut.auxStore w pc r = s.clearOut := by
      simp only [List.mem_cons, List.not_mem_nil, or_false] at hr
      obtain rfl | rfl | rfl | rfl | rfl := hr <;> rfl
    rw [exec_auxWrite_kernel hk hid (malformedAccess_eq_false_iff.2 hgood), hignored]
    rfl

/-- Settles O36: no access of these registers is malformed, and each store writes one field. -/
theorem plainAuxWriteStoresItsWord : Obligations.PlainAuxWriteStoresItsWord := by
  intro s id w pc hk
  have hstore {r : AuxReg} (hgood : ∀ s : State, s.malformedAccess r = false) (hid : s.cfg.auxReg? id = some r) :
      exec (.auxWrite id w pc) s = .next (s.clearOut.auxStore w pc r) := exec_auxWrite_kernel hk hid (hgood s) w pc
  exact ⟨hstore fun _ => rfl, hstore fun _ => rfl, hstore fun _ => rfl, hstore fun _ => rfl, hstore fun _ => rfl,
    hstore fun _ => rfl, hstore fun _ => rfl, hstore fun _ => rfl, hstore fun _ => rfl, hstore fun _ => rfl⟩

/-! ### What the computed registers read as -/

/-- A flag in bit 0. -/
theorem bitAt_zero (b : Bool) : bitAt b 0 = if b then 1 else 0 := rfl

/-- The selected source is pending by its latch or its line, or by the hint register when it is a software source
(10_state R44). -/
theorem State.pending_selected {s : State} (h : selectsSource s) :
    s.pending (s.irq.select.toNat - 16) =
      if s.irq.select.toNat - 16 < s.cfg.numHwIrq then
        if (s.source (s.irq.select.toNat - 16)).trig then (s.source (s.irq.select.toNat - 16)).plat
        else s.lineOf (s.irq.select.toNat - 16)
      else decide (s.irq.hint = s.irq.select) := by
  have hsoft : decide (s.irq.hint.toNat = 16 + (s.irq.select.toNat - 16)) = decide (s.irq.hint = s.irq.select) := by
    rw [Nat.add_sub_of_le h.1]
    exact decide_eq_decide.2 BitVec.toNat_inj
  rw [State.pending, hsoft]

/-- `ICAUSE` reads the cause of the lowest active level (43_interrupts R239). -/
theorem State.currentCause_lowest {s : State} {p : Nat} (hp : p < 16) (hset : s.irq.act.getLsbD p = true)
    (hbelow : ∀ q < p, s.irq.act.getLsbD q = false) : s.currentCause = s.irq.icause.getD p 0 := by
  unfold State.currentCause
  rw [lsb?_eq_some.2 ⟨hp, hset, hbelow⟩]

theorem State.currentCause_idle {s : State} (h : s.irq.act = 0) : s.currentCause = 0 := by
  unfold State.currentCause
  rw [lsb?_eq_none.2 h]

/-- A flag above a field adds to it. -/
theorem toNat_or_bitAt {x : Word} {k : Nat} (hk : k < 32) (hx : x.toNat < 2 ^ k) (b : Bool) :
    (x ||| bitAt b k).toNat = x.toNat + 2 ^ k * b.toNat := by
  have hbit : (bitAt b k).toNat = 2 ^ k * b.toNat := by
    cases b with
    | false => rfl
    | true => exact (toNat_one_shiftLeft hk).trans (Nat.mul_one _).symm
  rw [BitVec.toNat_or, hbit, Nat.or_comm, ← Nat.two_pow_add_eq_or_of_lt hx, Nat.add_comm]

/-- The fields of `IRQ_CTRL` do not overlap, so that the packed word is their sum (30_encoding R125). -/
theorem toNat_packIrqCtrl (c : IrqCtrl) :
    (packIrqCtrl c).toNat =
      c.nr.toNat + 2 ^ 9 * c.b.toNat + 2 ^ 10 * c.l.toNat + 2 ^ 11 * c.u.toNat + 2 ^ 13 * c.lp.toNat := by
  have hnr : (c.nr.setWidth 32).toNat = c.nr.toNat := BitVec.toNat_setWidth_of_le (by decide)
  have hpairs := c.nr.isLt
  have hb := toNat_or_bitAt (show 9 < 32 by decide) (show (c.nr.setWidth 32).toNat < 2 ^ 9 by omega) c.b
  have hb1 := c.b.toNat_le
  have hl := toNat_or_bitAt (show 10 < 32 by decide) (x := c.nr.setWidth 32 ||| bitAt c.b 9) (by omega) c.l
  have hl1 := c.l.toNat_le
  have hu := toNat_or_bitAt (show 11 < 32 by decide) (x := c.nr.setWidth 32 ||| bitAt c.b 9 ||| bitAt c.l 10)
    (by omega) c.u
  have hu1 := c.u.toNat_le
  rw [packIrqCtrl, toNat_or_bitAt (by decide) (by omega), hu, hl, hb, hnr]

/-- Settles O34: the answered value, case by case. -/
theorem computedRegistersReadTheirRule : Obligations.ComputedRegistersReadTheirRule := by
  intro s id pc r hk hid hgood
  refine ⟨s.auxValue r, ((auxReadAnswersTheRegister s id pc hk).2 r hid).2 hgood, ?writeOnly, ?pending, ?icause,
    ?status, ?ecr, ?mpuEcr, ?select, ?hint, ?priority, ?ctrl⟩
  case writeOnly => rintro (rfl | rfl) <;> rfl
  case pending =>
    rintro rfl
    have hselects : selectsSource s := hgood.2 (by decide)
    show bitAt (s.pending (s.irq.select.toNat - 16)) 0 = _
    rw [bitAt_zero, State.pending_selected hselects]
    split <;> [split; skip] <;> simp
  case icause =>
    rintro rfl
    exact ⟨fun hidle => congrArg (BitVec.setWidth 32) (State.currentCause_idle hidle),
      fun p hp hset hbelow => congrArg (BitVec.setWidth 32) (State.currentCause_lowest hp hset hbelow)⟩
  case priority =>
    rintro rfl
    exact BitVec.toNat_setWidth_of_le (by decide)
  case ctrl =>
    rintro rfl
    exact toNat_packIrqCtrl _
  all_goals
    rintro rfl
    rfl

end Sys2Proof.Machine
end

section
/-! SUPPORT. A written register reads back the word without its reserved bits (30_encoding R98), and the writes of the
interrupt registers (43_interrupts R232 to R241). -/

namespace Sys2Proof.Machine

/-! ### A word packed again after it was unpacked -/

/-- A field of a word, put back where it stood, is what the field's mask leaves of the word. -/
theorem extract_setWidth_shiftLeft (w : Word) {a n : Nat} (h : n ≤ 32) :
    (w.extractLsb' a n).setWidth 32 <<< a = w &&& (lowMask n <<< a) := by
  refine BitVec.eq_of_getLsbD_eq fun k hk => ?_
  rw [BitVec.getLsbD_and, BitVec.getLsbD_shiftLeft, BitVec.getLsbD_shiftLeft, BitVec.getLsbD_setWidth,
    BitVec.getLsbD_extractLsb', getLsbD_lowMask h]
  by_cases hka : k < a
  · simp [hka]
  · rw [Nat.add_sub_of_le (Nat.le_of_not_lt hka), show decide (k - a < 32) = true from decide_eq_true (by omega)]
    cases w.getLsbD k <;> simp

/-- The low field of a word. -/
theorem setWidth_setWidth_eq_and (w : Word) {n : Nat} (h : n ≤ 32) : (w.setWidth n).setWidth 32 = w &&& lowMask n := by
  refine BitVec.eq_of_getLsbD_eq fun k hk => ?_
  rw [BitVec.getLsbD_and, BitVec.getLsbD_setWidth, BitVec.getLsbD_setWidth, getLsbD_lowMask h,
    decide_eq_true hk, Bool.true_and, Bool.and_comm]

theorem and_ones (w : Word) : w &&& 0xFFFFFFFF = w := BitVec.and_allOnes

theorem packIndex_unpackIndex (w : Word) : packIndex (unpackIndex w) = w &&& 0xC00003FF := by
  simp only [packIndex, unpackIndex, bitAt_getLsbD, setWidth_setWidth_eq_and w (show 10 ≤ 32 by decide),
    ← BitVec.and_or_distrib_left]
  rfl

theorem packPid_unpackPid (w : Word) : packPid (unpackPid w) = w &&& 0x800000FF := by
  simp only [packPid, unpackPid, bitAt_getLsbD, setWidth_setWidth_eq_and w (show 8 ≤ 32 by decide),
    ← BitVec.and_or_distrib_left]
  rfl

theorem packMpuEn_fields (w : Word) : packMpuEn (w.getLsbD 30) (w.extractLsb' 3 6) = w &&& 0x400001F8 := by
  simp only [packMpuEn, bitAt_getLsbD, extract_setWidth_shiftLeft w (show 6 ≤ 32 by decide),
    ← BitVec.and_or_distrib_left]
  rfl

theorem packRdb_unpackRdb (w : Word) (r : Region) : packRdb (unpackRdb w r) = w &&& 0xFFFFFFE1 := by
  simp only [packRdb, unpackRdb, baseAddr, bitAt_getLsbD, extract_setWidth_shiftLeft w (show 27 ≤ 32 by decide),
    ← BitVec.and_or_distrib_left]
  rfl

theorem packRdp_unpackRdp (w : Word) (r : Region) : packRdp (unpackRdp w r) = w &&& 0x3FF8 := by
  simp only [packRdp, unpackRdp, extract_setWidth_shiftLeft w (show 5 ≤ 32 by decide),
    extract_setWidth_shiftLeft w (show 6 ≤ 32 by decide), ← BitVec.and_or_distrib_left]
  rfl

/-- The bitmap of a written `IRQ_ACT` keeps the levels below `NUM_PRIO` (30_encoding R124). -/
theorem packIrqAct_fields {cfg : Config} (h : cfg.numPrio ≤ 16) (w : Word) :
    packIrqAct cfg (w.setWidth 16 &&& actMask cfg) (w.getLsbD 31) =
      w &&& (0x80000000 ||| ((1#32 <<< cfg.numPrio) - 1)) := by
  have hlevels : (w.setWidth 16 &&& actMask cfg &&& actMask cfg).setWidth 32 = w &&& lowMask cfg.numPrio := by
    rw [BitVec.and_assoc, BitVec.and_self]
    refine BitVec.eq_of_getLsbD_eq fun k hk => ?_
    rw [BitVec.getLsbD_setWidth, BitVec.getLsbD_and, BitVec.getLsbD_and, BitVec.getLsbD_setWidth,
      getLsbD_lowMask (show cfg.numPrio ≤ 32 by omega), decide_eq_true hk]
    by_cases h16 : k < 16
    · rw [getLsbD_actMask h h16, decide_eq_true h16, Bool.true_and, Bool.true_and]
    · rw [decide_eq_false h16, decide_eq_false (show ¬k < cfg.numPrio by omega)]
      simp
  rw [packIrqAct, hlevels, bitAt_getLsbD, ← BitVec.and_or_distrib_left]
  rfl

/-! ### A store and the read after it -/

/-- `t` is a state in which register `r` reads `x` to an access that is well formed and allowed where it was in `s`. -/
structure Stored (s t : State) (r : AuxReg) (x : Word) : Prop where
  cfg : t.cfg = s.cfg
  status : t.status = s.status
  select : t.irq.select = s.irq.select
  fault : t.out.fault = s.out.fault
  value : t.auxValue r = x

/-- The source that a well-formed per-vector access addresses is one of the 240. -/
theorem selected_lt {s : State} (hcfg : s.cfg.wf = true) (h : selectsSource s) : s.irq.select.toNat - 16 < 240 := by
  have := (Config.numIrq_le hcfg).2
  obtain ⟨-, hlt⟩ := h
  omega

/-- A store of a register that takes what is written (30_encoding R98, 93 K14). -/
theorem auxStore_stored {s : State} (w pc : Word) {mask : Word} {r : AuxReg} (hcfg : s.cfg.wf = true)
    (hgood : goodAccess s r) (hmask : storedBits s.cfg r = some mask) :
    Stored s (s.auxStore w pc r) r (w &&& mask) := by
  obtain ⟨-, -, -, -, hprio, -⟩ := (Config.wf_iff s.cfg).1 hcfg
  have hregions := Config.wf_regions hcfg
  cases r <;> cases hmask
  case pd0 | pd1 => exact ⟨rfl, rfl, rfl, rfl, rfl⟩
  case sasid0 | sasid1 | efa | eret | erstatus | erbta | ivb | userSp | statusP0 =>
    exact ⟨rfl, rfl, rfl, rfl, (and_ones w).symm⟩
  case tlbindex => exact ⟨rfl, rfl, rfl, rfl, packIndex_unpackIndex w⟩
  case pid => exact ⟨rfl, rfl, rfl, rfl, packPid_unpackPid w⟩
  case mpuEn => exact ⟨rfl, rfl, rfl, rfl, packMpuEn_fields w⟩
  case irqAct => exact ⟨rfl, rfl, rfl, rfl, packIrqAct_fields hprio w⟩
  case rdb i =>
    have hi : i < 16 := Nat.lt_of_lt_of_le (hgood.1 i (.inl rfl)) hregions
    refine ⟨rfl, rfl, rfl, rfl, ?_⟩
    exact (congrArg packRdb (State.region_writeRegion_self _ _ hi)).trans (packRdb_unpackRdb w _)
  case rdp i =>
    have hi : i < 16 := Nat.lt_of_lt_of_le (hgood.1 i (.inr rfl)) hregions
    refine ⟨rfl, rfl, rfl, rfl, ?_⟩
    exact (congrArg packRdp (State.region_writeRegion_self _ _ hi)).trans (packRdp_unpackRdp w _)
  case irqEnable =>
    refine ⟨rfl, rfl, rfl, rfl, ?_⟩
    have hself := State.source_setSource_self s { s.source s.selected with en := w.getLsbD 0 }
      (selected_lt hcfg (hgood.2 (by decide)))
    exact (congrArg (fun e : IrqSource => bitAt e.en 0) hself).trans (bitAt_getLsbD w 0)
  case irqTrigger =>
    refine ⟨rfl, rfl, rfl, rfl, ?_⟩
    have hself := State.source_setSource_self s { s.source s.selected with trig := w.getLsbD 0 }
      (selected_lt hcfg (hgood.2 (by decide)))
    exact (congrArg (fun e : IrqSource => bitAt e.trig 0) hself).trans (bitAt_getLsbD w 0)

/-- Settles O38: the store leaves an access as well formed as it was, and the read answers the register's value. -/
theorem writtenRegisterReadsBackWithoutReservedBits : Obligations.WrittenRegisterReadsBackWithoutReservedBits := by
  intro s id w pc pc' mask r hcfg hk hid hgood hmask
  have hstored : Stored s.clearOut (s.clearOut.auxStore w pc r) r (w &&& mask) := auxStore_stored w pc hcfg hgood hmask
  have hgood' : goodAccess (s.clearOut.auxStore w pc r) r := by
    unfold goodAccess selectsSource
    rw [hstored.cfg, hstored.select]
    exact hgood
  have hread := ((auxReadAnswersTheRegister _ id pc' (hstored.status ▸ hk)).2 r (hstored.cfg ▸ hid)).2 hgood'
  exact ⟨_, _, exec_auxWrite_kernel hk hid (malformedAccess_eq_false_iff.2 hgood) w pc, hread,
    congrArg some hstored.value, hstored.fault⟩

/-! ### Interrupt registers -/

/-- The levels below `NUM_PRIO`, as a number (30_encoding R124). -/
theorem actMask_eq {cfg : Config} (h : cfg.numPrio ≤ 16) : actMask cfg = BitVec.ofNat 16 (2 ^ cfg.numPrio - 1) := by
  apply BitVec.eq_of_toNat_eq
  rw [actMask, BitVec.toNat_setWidth, toNat_lowMask (Nat.le_trans h (by decide)), BitVec.toNat_ofNat]

/-- A written priority is clamped to the configured levels (43_interrupts R233). -/
theorem toNat_clampPrio (cfg : Config) (w : Word) :
    (clampPrio cfg w).toNat = min (w.toNat % 16) (cfg.numPrio - 1) := by
  rw [clampPrio, BitVec.toNat_ofNat, BitVec.toNat_setWidth]
  exact Nat.mod_eq_of_lt (Nat.lt_of_le_of_lt (Nat.min_le_left _ _) (Nat.mod_lt _ (by decide)))

/-- What the selected source becomes in a write of a per-vector register (43_interrupts R233 to R235). -/
def writtenSource (cfg : Config) (e : IrqSource) (w : Word) : AuxReg → IrqSource
  | .irqPriority => { e with prio := clampPrio cfg w }
  | .irqEnable => { e with en := w.getLsbD 0 }
  | .irqTrigger => { e with trig := w.getLsbD 0 }
  | .irqPulseCancel => { e with plat := e.plat && !w.getLsbD 0 }
  | _ => e

/-- A store of a per-vector register writes the selected source alone (43_interrupts R233 to R235). -/
theorem auxStore_perVector {s : State} (w pc : Word) {r : AuxReg} (hcfg : s.cfg.wf = true) (hselects : selectsSource s)
    (hr : r ∈ [AuxReg.irqPriority, .irqEnable, .irqTrigger, .irqPulseCancel]) :
    s.auxStore w pc r = { s with irq.sources := (s.auxStore w pc r).irq.sources } ∧
      (∀ n ≠ s.irq.select.toNat - 16, (s.auxStore w pc r).source n = s.source n) ∧
      (s.auxStore w pc r).source (s.irq.select.toNat - 16) =
        writtenSource s.cfg (s.source (s.irq.select.toNat - 16)) w r := by
  have hstore (e : IrqSource) : (∀ n ≠ s.irq.select.toNat - 16, (s.setSource s.selected e).source n = s.source n) ∧
      (s.setSource s.selected e).source (s.irq.select.toNat - 16) = e :=
    ⟨fun _ hn => State.source_setSource_other s e hn, State.source_setSource_self s e (selected_lt hcfg hselects)⟩
  simp only [List.mem_cons, List.not_mem_nil, or_false] at hr
  obtain rfl | rfl | rfl | rfl := hr
  case inr.inr.inr =>
    cases hcancel : w.getLsbD 0 with
    | true =>
      have hcleared : s.auxStore w pc .irqPulseCancel = s.setSource s.selected { s.source s.selected with plat := false } :=
        if_pos hcancel
      rw [hcleared, writtenSource, hcancel, Bool.not_true, Bool.and_false]
      exact ⟨rfl, hstore _⟩
    | false =>
      have hkept : s.auxStore w pc .irqPulseCancel = s := if_neg (Bool.eq_false_iff.1 hcancel)
      rw [hkept, writtenSource, hcancel, Bool.not_false, Bool.and_true]
      exact ⟨rfl, fun _ _ => rfl, rfl⟩
  all_goals exact ⟨rfl, hstore _⟩

/-- Settles O39: each register's store, with its range check. -/
theorem irqRegisterWritesStoreTheirField : Obligations.IrqRegisterWritesStoreTheirField := by
  intro s id w pc hcfg hk
  obtain ⟨-, -, -, -, hprio, -⟩ := (Config.wf_iff s.cfg).1 hcfg
  refine ⟨fun hid => ?select, fun hid => ?hint, fun hid => ?ctrl, fun hid => ?act,
    fun hselects r hr hid => ?perVector⟩
  case select =>
    rw [exec_auxWrite_kernel hk hid rfl, exec_raise_instructionError]
    exact apply_ite Host.Outcome.next _ _ _
  case hint =>
    rw [exec_auxWrite_kernel hk hid rfl]
    exact congrArg _ (apply_ite (fun v : Byte => ({ s.clearOut with irq.hint := v } : State)) _ _ _).symm
  case ctrl =>
    rw [exec_auxWrite_kernel hk hid rfl, exec_raise_instructionError]
    exact apply_ite Host.Outcome.next _ _ _
  case act =>
    rw [exec_auxWrite_kernel hk hid rfl, ← actMask_eq hprio]
    rfl
  case perVector =>
    have hgood : goodAccess s r := by
      simp only [List.mem_cons, List.not_mem_nil, or_false] at hr
      obtain rfl | rfl | rfl | rfl := hr <;> exact ⟨nofun, fun _ => hselects⟩
    obtain ⟨hframe, hothers, hself⟩ := auxStore_perVector (s := s.clearOut) w pc hcfg hselects hr
    refine ⟨_, exec_auxWrite_kernel hk hid (malformedAccess_eq_false_iff.2 hgood) w pc, hframe, hothers, ?_⟩
    refine ⟨?_, ?_, ?_, ?_⟩ <;> rintro rfl
    · exact ⟨_, toNat_clampPrio s.cfg w, hself⟩
    all_goals exact hself

end Sys2Proof.Machine
end

section
/-! SUPPORT. A regular entry and the return that undoes it (43_interrupts R263): the words of the frame by their places,
the level that the entry set, and the stack on which the return finds the frame. -/

namespace Sys2Proof.Machine

/-! ### The words of a frame by their places -/

/-- The code-density bases (43_interrupts R255). -/
theorem State.frameWords_bases {s : State} (h : (s.cfg.codeDensity && s.irq.ctrl.lp) = true) (pc : Word) :
    (s.frameWords pc)[2]? = some s.cpu.eiBase ∧ (s.frameWords pc)[3]? = some s.cpu.ldiBase ∧
      (s.frameWords pc)[4]? = some s.cpu.jliBase := by
  unfold State.frameWords
  rw [h]
  exact ⟨rfl, rfl, rfl⟩

/-- The loop registers (43_interrupts R255). -/
theorem State.frameWords_loop {s : State} (h : (s.cfg.hasLoop && s.irq.ctrl.l) = true) (pc : Word) {m : Nat}
    (hm : m = 2 + 3 * (s.cfg.codeDensity && s.irq.ctrl.lp).toNat) :
    (s.frameWords pc)[m]? = some s.cpu.lpCount ∧ (s.frameWords pc)[m + 1]? = some s.cpu.lpStart ∧
      (s.frameWords pc)[m + 2]? = some s.cpu.lpEnd := by
  subst hm
  unfold State.frameWords
  rw [h]
  cases s.cfg.codeDensity && s.irq.ctrl.lp <;> exact ⟨rfl, rfl, rfl⟩

/-- `BLINK` (43_interrupts R255). -/
theorem State.frameWords_blink {s : State} (h : s.irq.ctrl.b = true) (pc : Word) :
    (s.frameWords pc)[s.frameSize - 1 - 2 * s.irq.ctrl.nr.toNat]? = some (s.readReg regBlink) := by
  unfold State.frameWords State.frameSize
  rw [h, Bool.toNat_true, Nat.sub_right_comm, Nat.add_sub_cancel, Nat.add_sub_cancel]
  cases s.cfg.codeDensity && s.irq.ctrl.lp <;> cases s.cfg.hasLoop && s.irq.ctrl.l <;> rfl

/-- The register pairs are the last words of a frame (43_interrupts R255). -/
theorem State.frameWords_reg {s : State} {k : Nat} (h : k < 2 * s.irq.ctrl.nr.toNat) (pc : Word) :
    (s.frameWords pc)[s.frameSize - 2 * s.irq.ctrl.nr.toNat + k]? = some (s.readReg (Fin.ofNat 32 k)) := by
  have hreg : ((List.range (2 * s.irq.ctrl.nr.toNat)).map fun k => s.readReg (Fin.ofNat 32 k))[k]? =
      some (s.readReg (Fin.ofNat 32 k)) := by simp [h]
  have hlen := s.length_frameWords pc
  rw [← hreg]
  unfold State.frameWords at hlen ⊢
  rw [List.length_append, List.length_map, List.length_range] at hlen
  rw [List.getElem?_append_right (by omega)]
  congr 1
  omega

/-! ### The level that the entry set -/

/-- Clearing a level that was set anew restores the bitmap. -/
theorem clear_setLevel {act : BitVec 16} {p : Nat} (hp : p < 16) (h : act.getLsbD p = false) :
    (act ||| 1#16 <<< p) &&& ~~~(1#16 <<< p) = act := by
  refine BitVec.eq_of_getLsbD_eq fun q hq => ?_
  rw [BitVec.getLsbD_and, BitVec.getLsbD_or, BitVec.getLsbD_not, getLsbD_level hp, decide_eq_true hq, Bool.true_and]
  by_cases hqp : q = p
  · rw [hqp, h, decide_eq_true rfl, Bool.not_true, Bool.and_false]
  · rw [decide_eq_false hqp, Bool.or_false, Bool.not_false, Bool.and_true]

/-- A level set anew is the only active one exactly when none was active. -/
theorem onlyLevel_setLevel {act : BitVec 16} {p : Nat} (hp : p < 16) (h : act.getLsbD p = false) :
    ((List.range 16).all fun q => (act ||| 1#16 <<< p).getLsbD q == decide (q = p)) = decide (act = 0) := by
  rw [Bool.eq_iff_iff, List.all_eq_true, decide_eq_true_iff]
  simp only [BitVec.getLsbD_or, getLsbD_level hp, beq_iff_eq, List.mem_range]
  constructor
  · intro hall
    refine BitVec.eq_of_getLsbD_eq fun q hq => ?_
    by_cases hqp : q = p
    · exact (congrArg act.getLsbD hqp).trans (h.trans BitVec.getLsbD_zero.symm)
    · have hq' := hall q hq
      rw [decide_eq_false hqp, Bool.or_false] at hq'
      exact hq'.trans BitVec.getLsbD_zero.symm
  · rintro rfl q -
    exact (congrArg (· || _) BitVec.getLsbD_zero).trans (Bool.false_or _)

/-- A taken source's level is below every active one (43_interrupts R245). -/
theorem takes_level {s : State} {n : Nat} (h : takes s n) {q : Nat} (hq : q ≤ (s.source n).prio.toNat) :
    s.irq.act.getLsbD q = false := by
  obtain ⟨-, -, hurgent⟩ := h
  refine Bool.eq_false_iff.2 fun hset => ?_
  have := State.currentPrio_le hset
  omega

/-! ### The handler's state -/

/-- In the handler's state the frame is as large as it was at the entry. -/
theorem State.frameSize_congr {s t : State} (hc : t.cfg = s.cfg) (hctrl : t.irq.ctrl = s.irq.ctrl) :
    t.frameSize = s.frameSize := by
  unfold State.frameSize
  rw [hc, hctrl]

/-- Word `k` of a frame, counted from the frame's lowest word (43_interrupts R258). -/
theorem frameAddr_from_bottom (sp : Word) {k size : Nat} (hk : k < size) :
    sp - BitVec.ofNat 32 (4 * size) + BitVec.ofNat 32 (4 * (size - 1 - k)) = frameAddr sp k := by
  have hsum : 4 * size = 4 * (size - 1 - k) + 4 * (k + 1) := by omega
  rw [frameAddr, hsum, BitVec.ofNat_add, sub_add_eq_sub_sub, sub_right_comm, sub_add_cancel]

/-- The return finds the frame on the user stack exactly when the entry pushed it there: the entry's condition (R259)
and the bitmap's invariant tell the two levels apart (43_interrupts R262). -/
theorem entryOnUserStack {s : State} (hidle : s.irq.act = 0 → s.irq.actU = false)
    (hlost : ¬(s.status.u = true ∧ s.irq.ctrl.u = true ∧ s.irq.act ≠ 0)) :
    (s.irq.ctrl.u && (s.irq.actU || decide (s.irq.act = 0) && s.status.u) && decide (s.irq.act = 0)) =
      (s.status.u && s.irq.ctrl.u) := by
  by_cases hact : s.irq.act = 0
  · rw [hidle hact, decide_eq_true hact, Bool.false_or, Bool.true_and, Bool.and_true, Bool.and_comm]
  · rw [decide_eq_false hact, Bool.and_false, eq_comm, Bool.eq_false_iff, ne_eq, Bool.and_eq_true]
    exact fun ⟨hu, hctrl⟩ => hlost ⟨hu, hctrl, hact⟩

/-- The handler's state returns from the level that the entry set, on the regular path (43_interrupts R260). -/
theorem returnsFrom_entryLevel {s h : State} {n : Nat} (htakes : takes s n)
    (hregular : ¬((s.source n).prio = 0 ∧ s.cfg.firqPresent = true)) (hcfg : h.cfg = s.cfg) (hae : h.status.ae = false)
    (hact : h.irq.act = s.irq.act ||| 1#16 <<< (s.source n).prio.toNat) :
    returnsFrom h (s.source n).prio.toNat := by
  have hlevel (q : Nat) : h.irq.act.getLsbD q = (s.irq.act.getLsbD q || decide (q = (s.source n).prio.toNat)) := by
    rw [hact, BitVec.getLsbD_or, getLsbD_level (s.source n).prio.isLt]
  refine ⟨hae, ?_, fun q hq => ?_, fun ⟨hzero, hfast⟩ => hregular ⟨BitVec.eq_of_toNat_eq hzero, hcfg ▸ hfast⟩⟩
  · rw [hlevel, decide_eq_true rfl, Bool.or_true]
  · rw [hlevel, takes_level htakes (Nat.le_of_lt hq), decide_eq_false (Nat.ne_of_lt hq), Bool.or_false]

/-- The handler's state holds the words that the entry pushed. -/
theorem handler_word_eq {s t h : State} {sp : Word} (hkept : HandlerKeptTheFrame s t h sp) {k : Nat}
    (hk : k < s.frameSize) : h.word (frameAddr sp k) = t.word (frameAddr sp k) := by
  rw [State.word, State.word, hkept.cfg]
  exact Memory.readWord_congr fun j hj => hkept.frame _ k hk ⟨j, hj, rfl⟩

/-- Settles O56: the return pops from the place where the entry pushed, finds the words of the frame there, and clears
the level that the entry set. -/
theorem regularReturnUndoesItsEntry : Obligations.RegularReturnUndoesItsEntry := by
  intro s t h n pc sp hs hquiet htakes hidle hregular hlost hsp hpoll hkept
  obtain ⟨t', ht', hentry, hmarks, hlen, hwords, -, hspT, huserSpT, -, -⟩ :=
    regularEntryPushesTheFrame s n pc sp hs hquiet htakes hregular hlost hsp
  obtain rfl : t' = t := Host.Outcome.next.inj (ht'.symm.trans hpoll)
  have hp : (s.source n).prio.toNat < 16 := (s.source n).prio.isLt
  have hnew := takes_level htakes (Nat.le_refl _)
  have hcfg : h.cfg = s.cfg := hkept.cfg.trans (by rw [hentry])
  have hctrl : h.irq.ctrl = s.irq.ctrl := hkept.ctrl.trans hmarks.ctrl
  have hact : h.irq.act = s.irq.act ||| 1#16 <<< (s.source n).prio.toNat := hkept.act.1.trans hmarks.act
  have hactU := hkept.act.2.trans hmarks.actU
  have hbank : h.status.rb = s.status.rb := hkept.bank.trans (by rw [hentry])
  have hsize : h.frameSize = s.frameSize := State.frameSize_congr hcfg hctrl
  have hreturns := returnsFrom_entryLevel htakes hregular hcfg hkept.noException hact
  have honUser : (s.status.u && s.irq.ctrl.u) = (h.irq.ctrl.u && h.irq.actU &&
      (List.range 16).all fun q => h.irq.act.getLsbD q == decide (q = (s.source n).prio.toNat)) := by
    rw [hctrl, hactU, hact, onlyLevel_setLevel hp hnew, entryOnUserStack hidle hlost]
  have hbottom : sp - BitVec.ofNat 32 (4 * s.frameSize) =
      if (s.status.u && s.irq.ctrl.u) = true then h.cpu.userSp else h.readReg regSp := by
    rw [hkept.pointers.1, hkept.pointers.2, hspT, huserSpT]
    cases s.status.u <;> cases s.irq.ctrl.u <;> rfl
  obtain ⟨w, hw⟩ : ∃ w : Nat → Word, ∀ k, w k =
      h.word (sp - BitVec.ofNat 32 (4 * s.frameSize) + BitVec.ofNat 32 (4 * (h.frameSize - 1 - k))) :=
    ⟨_, fun _ => rfl⟩
  have hword : ∀ k x, (s.frameWords pc)[k]? = some x → w k = x := by
    intro k x hx
    obtain ⟨hk, rfl⟩ := List.getElem?_eq_some_iff.1 hx
    have hkSize : k < s.frameSize := hlen ▸ hk
    rw [hw, hsize, frameAddr_from_bottom sp hkSize, handler_word_eq hkept hkSize, hwords k hk]
  obtain ⟨r, hr, hreturn, hbases, -, hloop, -, hblink, hregs, -, -, hpointers, -⟩ :=
    regularReturnPopsTheFrame h _ _ _ _ w hkept.sound hkept.undisturbed hreturns honUser hbottom hw rfl
  rw [hcfg, hctrl] at hbases hloop
  rw [hctrl, hsize] at hblink hregs
  rw [hsize, hkept.pointers.1, hkept.pointers.2, hspT, huserSpT, sub_add_cancel] at hpointers
  have hstatus : r.status = s.status := by
    rw [hreturn, hword 0 _ rfl, hcfg]
    exact unpackStatus_packStatus hs.bank
  have hrestored : (r.readReg regSp, r.cpu.userSp) = (s.readReg regSp, s.cpu.userSp) := by
    rw [hpointers, hstatus, hsp]
    cases s.status.u <;> cases s.irq.ctrl.u <;> rfl
  obtain ⟨hspR, huserSpR⟩ := Prod.ext_iff.1 hrestored
  refine ⟨r, hr, hstatus, ?act, ?target, hspR, huserSpR, fun k hk => ?regs, fun hb => ?blink, fun hhas hl => ?loop,
    fun hhas hlp => ?bases⟩
  case act => rw [hreturn, hact]; exact clear_setLevel hp hnew
  case target => rw [hreturn]; exact congrArg some (hword 1 _ rfl)
  case regs =>
    rw [← State.regInBank_selected, hstatus, ← hbank, hregs k hk]
    exact hword _ _ (State.frameWords_reg hk pc)
  case blink =>
    rw [← State.regInBank_selected, hblink, if_pos hb]
    exact hword _ _ (State.frameWords_blink hb pc)
  case loop =>
    obtain ⟨hcount, hstart, hend⟩ := State.frameWords_loop (by rw [hhas, hl]; rfl) pc rfl
    obtain ⟨h0, h1, h2⟩ := hloop hhas hl
    exact ⟨h0.trans (hword _ _ hcount), h1.trans (hword _ _ hstart), h2.trans (hword _ _ hend)⟩
  case bases =>
    obtain ⟨hei, hldi, hjli⟩ := State.frameWords_bases (by rw [hhas, hlp]; rfl) pc
    obtain ⟨h0, h1, h2⟩ := hbases hhas hlp
    exact ⟨h0.trans (hword _ _ hei), h1.trans (hword _ _ hldi), h2.trans (hword _ _ hjli)⟩

end Sys2Proof.Machine
end
